-- ==== Sys2Proof/Word.lean ====
section
/-! DEFINITION. The machine's word and byte types (00_scope.md R6: XLEN 32, bytes of 8 bits). -/

namespace Sys2Proof

/-- A memory byte. -/
abbrev Byte := BitVec 8

/-- A general register, an ALU operand, an address, a memory word: 32 bits (00_scope.md R6). -/
abbrev Word := BitVec 32

/-- A 5-bit field of an instruction word: an opcode or a register index (30_encoding.md R71, R72). -/
abbrev Field5 := BitVec 5

end Sys2Proof
end

