-- ==== Sys2Proof/Config.lean ====
section
/-! DEFINITION. What is fixed for every machine (00_scope.md R6, R7). The construction parameter N is held in the
state (log 2); the initial memory contents are the contents of a state's memory (log 3). -/

namespace Sys2Proof.Config

/-- V, the bytes of the video buffer (20_memory.md R43). -/
abbrev videoSize : Nat := 4096

/-- Rows of a rendered text (20_memory.md R63). -/
abbrev videoRows : Nat := 64

/-- Columns of a rendered text (20_memory.md R63). -/
abbrev videoCols : Nat := 60

/-- VIDEO_STRIDE, bytes from one rendered row to the next (00_scope.md R7; the spec's decision D13, log 15). -/
abbrev videoStride : Nat := 60

/-- Bytes moved by every access, and the length of an instruction (20_memory.md R49, 30_encoding.md R70). -/
abbrev wordSize : Nat := 4

/-- General registers (10_state.md R13). -/
abbrev numRegs : Nat := 32

/-- The smallest immediate (00_scope.md R6). -/
abbrev immMin : Int := -2097152

/-- The largest immediate (00_scope.md R6). -/
abbrev immMax : Int := 2097151

/-- PC_RESET (00_scope.md R7; the spec's decision D6, log 4). -/
abbrev pcReset : Word := 0

/-- The capacities a machine may be built with (00_scope.md R7, decision D10). -/
abbrev CapacityOk (n : Nat) : Prop := videoSize + wordSize ≤ n ∧ n ≤ 2 ^ 31 ∧ n % wordSize = 0

/-- The bytes of MAIN in `State.reset`, so that N is 8192. DESIGN CHOICE (log 2): the spec leaves N open; 8192 is the
value of its examples. -/
abbrev resetMainSize : Nat := 4096

end Sys2Proof.Config
end

