-- ==== Sys2Proof/Syntax.lean ====
section
/-! DEFINITION. The fourteen instructions (30_encoding.md R75), one constructor per row of the opcode table. Operands
are the encoder's arguments (R82): a register number and an integer immediate, whose ranges WellFormed checks. -/

namespace Sys2Proof

/-- An instruction with its operands in the order of the spec's assembly forms (30_encoding.md R90): `d` the
destination, `a` the A register, `b` the B register. -/
inductive Instr
  /-- `nop` (R170). -/
  | nop
  /-- `addImmediate rA, imm` (R145). -/
  | addImmediate (a : Nat) (imm : Int)
  /-- `subImmediate rA, imm` (R146). -/
  | subImmediate (a : Nat) (imm : Int)
  /-- `add rD, rA, rB` (R141). -/
  | add (d a b : Nat)
  /-- `sub rD, rA, rB` (R142). -/
  | sub (d a b : Nat)
  /-- `nand rD, rA, rB` (R143). -/
  | nand (d a b : Nat)
  /-- `lshift rD, rA, rB` (R144). -/
  | lshift (d a b : Nat)
  /-- `jumpToReg rA` (R151). -/
  | jumpToReg (a : Nat)
  /-- `branchIfZero rA` (R152). -/
  | branchIfZero (a : Nat)
  /-- `branchIfPositive rA` (R153). -/
  | branchIfPositive (a : Nat)
  /-- `load rD, [rA]` (R161). -/
  | load (d a : Nat)
  /-- `store [rA], rS` (R162); `b` is the data register, which the encoding holds in the B field. -/
  | store (a b : Nat)
  /-- `displayFlush` (R171). -/
  | displayFlush
  /-- `halt` (R172). -/
  | halt
  deriving DecidableEq, Repr

end Sys2Proof
end

