-- ==== Sys2Proof/WellFormed.lean ====
section
/-! DEFINITION. The operand ranges the encoder validates (30_encoding.md R82): registers 0 to 31, immediates
-2097152 to 2097151. An instruction outside them has no word. -/

namespace Sys2Proof

/-- A register number the 5-bit fields can hold (30_encoding.md R72, R82). -/
def regOk (r : Nat) : Bool := decide (r < Config.numRegs)

/-- An immediate the 22-bit field can hold (30_encoding.md R73, R82). -/
def immOk (imm : Int) : Bool := decide (Config.immMin ≤ imm) && decide (imm ≤ Config.immMax)

/-- Every operand of the instruction is in its range (30_encoding.md R74, R82). -/
def Instr.wf : Instr → Bool
  | .nop => true
  | .addImmediate a imm => regOk a && immOk imm
  | .subImmediate a imm => regOk a && immOk imm
  | .add d a b => regOk d && regOk a && regOk b
  | .sub d a b => regOk d && regOk a && regOk b
  | .nand d a b => regOk d && regOk a && regOk b
  | .lshift d a b => regOk d && regOk a && regOk b
  | .jumpToReg a => regOk a
  | .branchIfZero a => regOk a
  | .branchIfPositive a => regOk a
  | .load d a => regOk d && regOk a
  | .store a b => regOk a && regOk b
  | .displayFlush => true
  | .halt => true

/-- `Instr.wf` as a proposition. -/
abbrev Instr.WellFormed (i : Instr) : Prop := i.wf = true

end Sys2Proof
end

