-- ==== Sys2Proof/Decode.lean ====
section
/-! DEFINITION. Instruction words: the fields of a word (30_encoding.md R71 to R73), the opcode table (R75), decoding
(R76 to R85, R115), byte order (20_memory.md R41, R42), and the encoder (R86). -/

namespace Sys2Proof

/-! ## Byte order -/

/-- The four bytes of a word from the lowest address up, most significant first (20_memory.md R41). -/
def wordBytes (w : Word) : List Byte :=
  [w.extractLsb' 24 8, w.extractLsb' 16 8, w.extractLsb' 8 8, w.extractLsb' 0 8]

/-- The word whose bytes, from the lowest address up, are the arguments (20_memory.md R41, R50). -/
def wordOfBytes (b0 b1 b2 b3 : Byte) : Word := b0 ++ b1 ++ b2 ++ b3

/-! ## Fields -/

/-- The opcode `w[4:0]` (30_encoding.md R71). -/
def opcodeField (w : Word) : Field5 := w.extractLsb' 0 5

/-- The A field `w[9:5]` (30_encoding.md R72). -/
def fieldA (w : Word) : Field5 := w.extractLsb' 5 5

/-- The B field `w[14:10]` (30_encoding.md R72). -/
def fieldB (w : Word) : Field5 := w.extractLsb' 10 5

/-- The dest field `w[19:15]` (30_encoding.md R72). -/
def fieldDest (w : Word) : Field5 := w.extractLsb' 15 5

/-- The immediate field `w[31:10]`, 22 bits (30_encoding.md R73). -/
def immSlot (w : Word) : BitVec 22 := w.extractLsb' 10 22

/-- The immediate, sign-extended to a word (30_encoding.md R73). -/
def immField (w : Word) : Word := (immSlot w).signExtend 32

/-! ## The opcode table -/

/-- The fourteen assigned opcodes (30_encoding.md R75). -/
inductive Opcode
  | nop | addImmediate | subImmediate | add | sub | nand | lshift | jumpToReg
  | branchIfZero | branchIfPositive | load | store | displayFlush | halt
  deriving DecidableEq, Repr

/-- The operand classes (30_encoding.md R74), with the load/store row split in two (R80). -/
inductive InstrClass
  | threeReg | regImm | oneReg | noOperand | loadForm | storeForm
  deriving DecidableEq, Repr

/-- The value of `w[4:0]` for each opcode (30_encoding.md R75). -/
def Opcode.code : Opcode → Field5
  | .nop => 0
  | .addImmediate => 1
  | .subImmediate => 2
  | .add => 3
  | .sub => 4
  | .nand => 5
  | .lshift => 6
  | .jumpToReg => 7
  | .branchIfZero => 9
  | .branchIfPositive => 10
  | .load => 14
  | .store => 15
  | .displayFlush => 16
  | .halt => 17

/-- The opcode a 5-bit value names; none for 8, 11, 12, 13 and 18 to 31 (30_encoding.md R75, R84). -/
def Opcode.ofCode (c : Field5) : Option Opcode :=
  match c.toNat with
  | 0 => some .nop
  | 1 => some .addImmediate
  | 2 => some .subImmediate
  | 3 => some .add
  | 4 => some .sub
  | 5 => some .nand
  | 6 => some .lshift
  | 7 => some .jumpToReg
  | 9 => some .branchIfZero
  | 10 => some .branchIfPositive
  | 14 => some .load
  | 15 => some .store
  | 16 => some .displayFlush
  | 17 => some .halt
  | _ => none

/-- The class column of the opcode table (30_encoding.md R75, R80). -/
def Opcode.cls : Opcode → InstrClass
  | .nop => .noOperand
  | .addImmediate => .regImm
  | .subImmediate => .regImm
  | .add => .threeReg
  | .sub => .threeReg
  | .nand => .threeReg
  | .lshift => .threeReg
  | .jumpToReg => .oneReg
  | .branchIfZero => .oneReg
  | .branchIfPositive => .oneReg
  | .load => .loadForm
  | .store => .storeForm
  | .displayFlush => .noOperand
  | .halt => .noOperand

/-- The write-back opcodes: the six arithmetic ones and load (40_control_unit.md R103). -/
def Opcode.writesBack : Opcode → Bool
  | .nop => false
  | .addImmediate => true
  | .subImmediate => true
  | .add => true
  | .sub => true
  | .nand => true
  | .lshift => true
  | .jumpToReg => false
  | .branchIfZero => false
  | .branchIfPositive => false
  | .load => true
  | .store => false
  | .displayFlush => false
  | .halt => false

/-- Ticks of an instruction: four with a Write stage, three without (70_reset_and_hazards.md R217). -/
def Opcode.ticks (o : Opcode) : Nat := if o.writesBack then 4 else 3

/-- The opcode of an instruction. -/
def Instr.opcode : Instr → Opcode
  | .nop => .nop
  | .addImmediate _ _ => .addImmediate
  | .subImmediate _ _ => .subImmediate
  | .add _ _ _ => .add
  | .sub _ _ _ => .sub
  | .nand _ _ _ => .nand
  | .lshift _ _ _ => .lshift
  | .jumpToReg _ => .jumpToReg
  | .branchIfZero _ => .branchIfZero
  | .branchIfPositive _ => .branchIfPositive
  | .load _ _ => .load
  | .store _ _ => .store
  | .displayFlush => .displayFlush
  | .halt => .halt

/-! ## Decoding -/

/-- The instruction with a given opcode whose operands are the fields of `w` (30_encoding.md R76 to R80). The fields
the class does not use are not looked at (R83; the spec's decision D17, log 13). -/
def Opcode.withFields (o : Opcode) (w : Word) : Instr :=
  match o with
  | .nop => .nop
  | .addImmediate => .addImmediate (fieldA w).toNat (immSlot w).toInt
  | .subImmediate => .subImmediate (fieldA w).toNat (immSlot w).toInt
  | .add => .add (fieldDest w).toNat (fieldA w).toNat (fieldB w).toNat
  | .sub => .sub (fieldDest w).toNat (fieldA w).toNat (fieldB w).toNat
  | .nand => .nand (fieldDest w).toNat (fieldA w).toNat (fieldB w).toNat
  | .lshift => .lshift (fieldDest w).toNat (fieldA w).toNat (fieldB w).toNat
  | .jumpToReg => .jumpToReg (fieldA w).toNat
  | .branchIfZero => .branchIfZero (fieldA w).toNat
  | .branchIfPositive => .branchIfPositive (fieldA w).toNat
  | .load => .load (fieldDest w).toNat (fieldA w).toNat
  | .store => .store (fieldA w).toNat (fieldB w).toNat
  | .displayFlush => .displayFlush
  | .halt => .halt

/-- Decode one word; none for an unassigned opcode (30_encoding.md R84, R115). -/
def decodeWord (w : Word) : Option Instr := (Opcode.ofCode (opcodeField w)).map (·.withFields w)

/-- Why bytes do not decode. -/
inductive DecodeError
  /-- Fewer than the four bytes of an instruction (30_encoding.md R70). -/
  | truncated
  /-- An opcode that names no instruction (30_encoding.md R84). -/
  | unassignedOpcode (op : Field5)
  deriving DecidableEq, Repr

/-- Decode the instruction at the head of a list of bytes, lowest address first (20_memory.md R42), and give the
bytes after it. -/
def decode : List Byte → Except DecodeError (Instr × List Byte)
  | b0 :: b1 :: b2 :: b3 :: rest =>
    match decodeWord (wordOfBytes b0 b1 b2 b3) with
    | some i => .ok (i, rest)
    | none => .error (.unassignedOpcode (opcodeField (wordOfBytes b0 b1 b2 b3)))
  | _ => .error .truncated

/-- What the decoder reads from the instruction whose bits are `w`, numbered as the opcode table numbers them (bit 0
the least significant of the one 32-bit word), the bits above `nbits` zero, laid out as memory holds it. -/
def decodeTableWord (nbits w : Nat) : Option Instr :=
  match decode (wordBytes (BitVec.ofNat 32 (w % 2 ^ nbits))) with
  | .ok (i, _) => some i
  | .error _ => none

/-! ## Encoding -/

/-- A register number as a 5-bit field. -/
def regField (r : Nat) : Field5 := BitVec.ofNat 5 r

/-- A 5-bit field at bit `n` of a word whose other bits are zero (30_encoding.md R86). -/
def fieldAt (f : Field5) (n : Nat) : Word := f.setWidth 32 <<< n

/-- `enc3(op, dest, A, B)`, the 3-register layout (30_encoding.md R76, R86). -/
def encThreeReg (o : Opcode) (d b a : Nat) : Word :=
  fieldAt (regField d) 15 ||| fieldAt (regField b) 10 ||| fieldAt (regField a) 5 ||| fieldAt o.code 0

/-- `encI(op, A, imm)`, the register+immediate layout (30_encoding.md R77, R86). -/
def encRegImm (o : Opcode) (a : Nat) (imm : Int) : Word :=
  (BitVec.ofInt 22 imm).setWidth 32 <<< 10 ||| fieldAt (regField a) 5 ||| fieldAt o.code 0

/-- `enc1(op, A)`, the 1-register layout (30_encoding.md R78, R86). -/
def encOneReg (o : Opcode) (a : Nat) : Word := fieldAt (regField a) 5 ||| fieldAt o.code 0

/-- `enc0(op)`, the no-operand layout (30_encoding.md R79, R86). -/
def encNoOperand (o : Opcode) : Word := fieldAt o.code 0

/-- `encLoad(other, A)` (30_encoding.md R80, R86; the dest slot by the spec's decision D3, log 8). -/
def encLoadForm (o : Opcode) (d a : Nat) : Word :=
  fieldAt (regField d) 15 ||| fieldAt (regField a) 5 ||| fieldAt o.code 0

/-- `encStore(A, other)` (30_encoding.md R80, R86; the B slot by the spec's decision D3, log 8). -/
def encStoreForm (o : Opcode) (a b : Nat) : Word :=
  fieldAt (regField b) 10 ||| fieldAt (regField a) 5 ||| fieldAt o.code 0

/-- The word of a well-formed instruction, unused bits zero (30_encoding.md R86). -/
def encode : Instr → Word
  | .nop => encNoOperand .nop
  | .addImmediate a imm => encRegImm .addImmediate a imm
  | .subImmediate a imm => encRegImm .subImmediate a imm
  | .add d a b => encThreeReg .add d b a
  | .sub d a b => encThreeReg .sub d b a
  | .nand d a b => encThreeReg .nand d b a
  | .lshift d a b => encThreeReg .lshift d b a
  | .jumpToReg a => encOneReg .jumpToReg a
  | .branchIfZero a => encOneReg .branchIfZero a
  | .branchIfPositive a => encOneReg .branchIfPositive a
  | .load d a => encLoadForm .load d a
  | .store a b => encStoreForm .store a b
  | .displayFlush => encNoOperand .displayFlush
  | .halt => encNoOperand .halt

/-- The external encoder's check (30_encoding.md R82, 60_exceptions.md R193): an instruction with an operand out of
range has no word. -/
def assemble (i : Instr) : Option Word := if i.wf then some (encode i) else none

/-- The bits of a word that the opcode's class looks at (30_encoding.md R76 to R80, R83). -/
def Opcode.usedMask (o : Opcode) : Word :=
  match o.cls with
  | .threeReg => 0x000FFFFF#32
  | .regImm => 0xFFFFFFFF#32
  | .oneReg => 0x000003FF#32
  | .noOperand => 0x0000001F#32
  | .loadForm => 0x000F83FF#32
  | .storeForm => 0x00007FFF#32

end Sys2Proof
end

