-- ==== Sys2Proof/Machine/State.lean ====
section
/-! DEFINITION. The state of the machine between two ticks (10_state.md R31), its reset value (R30), and the reasons a
run stops (60_exceptions.md). -/

namespace Sys2Proof.Machine

/-- The four stages of the control unit (10_state.md R23). -/
inductive CuState
  | fetch | decode | execute | write
  deriving DecidableEq, Repr

/-- The names a fatal UNDEFINED_SIGNAL records (60_exceptions.md R184; the names other than `flags` are the model's,
log 22). -/
inductive SignalName
  /-- The flag latch before any arithmetic instruction (10_state.md R21). -/
  | flags
  /-- The decoder's A output (30_encoding.md R81). -/
  | decoderA
  /-- The decoder's B output. -/
  | decoderB
  /-- The decoder's dest output. -/
  | decoderDest
  /-- The decoder's immediate output. -/
  | decoderImm
  /-- The register file's read outputs (10_state.md R15). -/
  | registerRead
  /-- The memory's address input (20_memory.md R52). -/
  | memoryAddress
  deriving DecidableEq, Repr

/-- The fatal errors (60_exceptions.md R182 to R188). The machine stops and never goes on (R180, R181), so each is
exact; where a rule behind one is the spec's own decision the constructor says so. -/
inductive Fault
  /-- ADDR_RANGE: fetch, load or store at an illegal address (R182). Raised by the Fetch stage and by `load` and
  `store`. Safe: the hardware stops too; that a straddling access is fatal is the spec's D28 (log 10). -/
  | addrRange (a : Word)
  /-- BAD_OPCODE: an opcode value that names no instruction (R183). Raised by the Decode stage. Safe. -/
  | badOpcode (op : Field5)
  /-- UNDEFINED_SIGNAL: reading a signal that has no value (R184). Raised by `branchIfZero` and `branchIfPositive`
  before any arithmetic instruction (D2, log 7). Safe. -/
  | undefinedSignal (name : SignalName)
  /-- WIRING: a register-file read and write in one tick (R185). Raised by `RegFile.cycle`; no program reaches it.
  Safe. -/
  | wiring
  /-- BUS_CONTENTION: two drivers on one bus in one tick (R186). Raised by `Bus.resolve`; no program reaches it.
  Safe. -/
  | busContention
  /-- REG_INDEX: a register index above 31 (R187). Raised by `RegFile.read` and `RegFile.write`; no word encodes one,
  so no program reaches it. Safe. -/
  | regIndex (idx : Nat)
  /-- WRITE_NO_WRITEBACK: the Write stage for an opcode without write-back (R188). Raised by `writeStage`; no program
  reaches it. Safe. -/
  | writeNoWriteback (op : Field5)
  deriving DecidableEq, Repr

/-- What the model gives no meaning. -/
inductive Refusal
  /-- An instruction without a meaning in `exec`, by its mnemonic; no arm uses it. Safe. -/
  | notModelled (mnemonic : String)
  /-- `State.construct` with a capacity outside 00_scope.md R7 (D10, log 20). Safe. -/
  | capacityOutOfRange (n : Nat)
  /-- `State.construct` with an image longer than main memory (70_reset_and_hazards.md R212, D12, log 20). Safe. -/
  | imageTooLong (words : Nat)
  deriving DecidableEq, Repr

/-- The contents of one memory instance by offset: strictly rising offsets, no entry equal to what an unlisted offset
reads as (`Memory.wf`). -/
abbrev Memory := List Host.Cell

/-- The two memory instances behind the address translation (20_memory.md R43). -/
inductive Region
  | main | video
  deriving DecidableEq, Repr

/-- An event of the output trace (10_state.md R32): the video buffer's contents at a `displayFlush`, all 4096 bytes
held in the canonical form of `Memory` (20_memory.md R62). -/
inductive Event
  | render (snap : Memory)
  deriving DecidableEq, Repr

/-- The complete state between two ticks (10_state.md R31). -/
structure State where
  /-- General registers (R13); entry 0 stays 0 (R14). -/
  x : Vector Word 32
  /-- Program counter (R18). -/
  pc : Word
  /-- Latched zero flag (R20). -/
  zf : Bool
  /-- Latched positive flag (R20). -/
  pf : Bool
  /-- Whether the flag latch holds a value (R20, R21). -/
  flagsValid : Bool
  /-- Control-unit state (R23). -/
  cuState : CuState
  /-- Halted flag (R24). -/
  halted : Bool
  /-- Scratch: `pc + 4` (R19, R25). -/
  nextPc : Word
  /-- Scratch: destination index (R25). -/
  destReg : Field5
  /-- Scratch: the sign-extended immediate (R25). -/
  imm : Word
  /-- Scratch: the ALU result (R25). -/
  aluResult : Word
  /-- Scratch: the opcode in flight (R25). -/
  opLatch : Field5
  /-- Memory output latch (R26). -/
  memOut : Word
  /-- Which instance `memOut` came from (R26). -/
  lastSelVideo : Bool
  /-- First register read latch (R27). -/
  rfOut1 : Word
  /-- Second register read latch (R27). -/
  rfOut2 : Word
  /-- The model's own field: the bytes of MAIN, `N - 4096`, which is VBASE; fixed at construction (20_memory.md R43,
  00_scope.md R7, log 2). -/
  mainSize : Nat
  /-- MAIN by offset (20_memory.md R43). -/
  main : Memory
  /-- VID by offset (20_memory.md R43). -/
  vid : Memory
  /-- Render events, oldest first (10_state.md R32). -/
  trace : List Event
  /-- The fatal error that ended the run (60_exceptions.md R181). -/
  fault : Option Fault
  deriving DecidableEq, Repr

/-- The state before the first tick (10_state.md R30, 70_reset_and_hazards.md R211) of a machine of
8192 bytes (`Config.resetMainSize` of them MAIN, log 2) with the empty image over zero bytes (log 3). -/
def State.reset : State where
  x := Vector.replicate 32 0
  pc := Config.pcReset
  zf := false
  pf := false
  flagsValid := false
  cuState := .fetch
  halted := false
  nextPc := 0
  destReg := 0
  imm := 0
  aluResult := 0
  opLatch := 0
  memOut := 0
  lastSelVideo := false
  rfOut1 := 0
  rfOut2 := 0
  mainSize := Config.resetMainSize
  main := []
  vid := []
  trace := []
  fault := none

end Sys2Proof.Machine
end

