-- ==== Sys2Proof/Machine/Signal.lean ====
section
/-! DEFINITION. The primitives the CORE is built from (00_scope.md R2): the combinational Signal (10_state.md R11), the
clocked Register (R12), and the shared bus (40_control_unit.md R118). -/

namespace Sys2Proof.Machine

/-- A combinational wire: a value with a "defined" flag (10_state.md R11). -/
inductive Signal (α : Type)
  | undefined
  | defined (v : α)
  deriving DecidableEq, Repr

/-- `set(value)` makes the signal defined (10_state.md R11). -/
def Signal.set {α : Type} (_s : Signal α) (v : α) : Signal α := .defined v

/-- `undefine()` (10_state.md R11). -/
def Signal.undefine {α : Type} (_s : Signal α) : Signal α := .undefined

/-- `isDefined()` (10_state.md R11). -/
def Signal.isDefined {α : Type} : Signal α → Bool
  | .undefined => false
  | .defined _ => true

/-- `get()`: reading an undefined Signal is a fatal error (10_state.md R11, 60_exceptions.md R184). -/
def Signal.get {α : Type} (name : SignalName) : Signal α → Except Fault α
  | .undefined => .error (.undefinedSignal name)
  | .defined v => .ok v

/-- A clocked storage cell: the committed value Q and the pending value Q-next, itself a Signal, undefined in a cycle
in which nothing drives it (10_state.md R12). -/
structure Reg (α : Type) where
  q : α
  qNext : Signal α
  deriving DecidableEq, Repr

/-- A Register as constructed, with its default or initial value (10_state.md R12). -/
def Reg.init {α : Type} (v : α) : Reg α := ⟨v, .undefined⟩

/-- `drive(value)` sets Q-next (10_state.md R12). -/
def Reg.drive {α : Type} (r : Reg α) (v : α) : Reg α := { r with qNext := .defined v }

/-- `read()` returns Q (10_state.md R12). -/
def Reg.read {α : Type} (r : Reg α) : α := r.q

/-- `tick()` copies Q-next into Q, or keeps Q if nothing drove it (10_state.md R12). -/
def Reg.tick {α : Type} (r : Reg α) : Reg α :=
  match r.qNext with
  | .undefined => r
  | .defined v => ⟨v, .undefined⟩

/-- The value on a shared bus in one tick from the values its drivers put there: none, one, or the fatal
resource-contention error (40_control_unit.md R118, 60_exceptions.md R186). -/
def Bus.resolve {α : Type} : List α → Except Fault (Signal α)
  | [] => .ok .undefined
  | [v] => .ok (.defined v)
  | _ :: _ :: _ => .error .busContention

end Sys2Proof.Machine
end

