-- ==== Sys2Proof/Machine/Ops.lean ====
section
/-! DEFINITION. The named operations over memory and registers: the memory instance (20_memory.md R41, R46), the
translated memory (R44, R47, R50, R51), the register file (10_state.md R13 to R16), the render event (R62), and the
fatal error (60_exceptions.md R181). -/

namespace Sys2Proof.Machine

/-! ## One memory instance -/

/-- What an offset that is not listed holds. DESIGN CHOICE of representation (log 3): any initial contents is a list
of cells over this byte. -/
def Memory.unlisted : Byte := 0

/-- The byte at an offset. -/
def Memory.read : Memory → Nat → Byte
  | [], _ => Memory.unlisted
  | (k, v) :: rest, a => if a = k then v else Memory.read rest a

/-- Put a byte at an offset, keeping the canonical form. -/
def Memory.set : Memory → Nat → Byte → Memory
  | [], a, b => if b = Memory.unlisted then [] else [(a, b)]
  | (k, v) :: rest, a, b =>
    if a < k then (if b = Memory.unlisted then (k, v) :: rest else (a, b) :: (k, v) :: rest)
    else if a = k then (if b = Memory.unlisted then rest else (k, b) :: rest)
    else (k, v) :: Memory.set rest a b

/-- Offsets strictly rising from `lo` on, none listed with the unlisted byte. -/
def Memory.wfFrom : Nat → Memory → Bool
  | _, [] => true
  | lo, (k, v) :: rest => decide (lo ≤ k) && decide (v ≠ Memory.unlisted) && Memory.wfFrom (k + 1) rest

/-- The canonical form. -/
def Memory.wf (m : Memory) : Bool := Memory.wfFrom 0 m

/-- Every listed offset lies inside an instance of `cap` bytes. -/
def Memory.below (cap : Nat) (m : Memory) : Bool := m.all fun c => decide (c.1 < cap)

/-- The instance of `cap` bytes with the contents `f`. -/
def Memory.ofContents (cap : Nat) (f : Nat → Byte) : Memory :=
  (List.range cap).filterMap fun a => if f a = Memory.unlisted then none else some (a, f a)

/-- The word at an offset, big-endian (20_memory.md R41, R50). -/
def Memory.readWord (m : Memory) (o : Nat) : Word :=
  wordOfBytes (Memory.read m o) (Memory.read m (o + 1)) (Memory.read m (o + 2)) (Memory.read m (o + 3))

/-- Put bytes at consecutive offsets. -/
def Memory.writeBytes (m : Memory) (o : Nat) : List Byte → Memory
  | [] => m
  | b :: rest => Memory.writeBytes (Memory.set m o b) (o + 1) rest

/-- Put a word at an offset, big-endian (20_memory.md R41, R51). -/
def Memory.writeWord (m : Memory) (o : Nat) (w : Word) : Memory := Memory.writeBytes m o (wordBytes w)

/-- The range check of one instance on the first byte's offset, recording the address (20_memory.md R46). -/
def Memory.check (cap o : Nat) (a : Word) : Except Fault Unit :=
  if o + Config.wordSize ≤ cap then .ok () else .error (.addrRange a)

/-! ## The translated memory -/

/-- VBASE, the first video address, which is the size of MAIN (20_memory.md R43). -/
def State.vbase (s : State) : Nat := s.mainSize

/-- N, the capacity of the translated space (20_memory.md R40, R43). -/
def State.capacity (s : State) : Nat := s.mainSize + Config.videoSize

/-- Replace MAIN. -/
def State.setMain (s : State) (m : Memory) : State := { s with main := m }

/-- Replace VID. -/
def State.setVid (s : State) (m : Memory) : State := { s with vid := m }

/-- The address-translation mux of a machine whose MAIN has `vbase` bytes: the instance an address selects and the
offset in it, after the translator's check and then the instance's (20_memory.md R44, R46, R47; a straddling access is
fatal, D28, log 10). -/
def translate (vbase : Nat) (a : Word) : Except Fault (Region × Nat) :=
  if vbase + Config.videoSize ≤ a.toNat then .error (.addrRange a)
  else if a.toNat < vbase then
    (Memory.check vbase a.toNat a).map fun _ => (.main, a.toNat)
  else
    (Memory.check Config.videoSize (a.toNat - vbase) a).map fun _ => (.video, a.toNat - vbase)

/-- The translation in a state (20_memory.md R44). -/
def State.locate (s : State) (a : Word) : Except Fault (Region × Nat) := translate s.vbase a

/-- "this access is video" (20_memory.md R44, R52). -/
def State.selectsVideo (s : State) (a : Word) : Bool := decide (s.vbase ≤ a.toNat)

/-- The contents of an instance. -/
def State.instanceOf (s : State) : Region → Memory
  | .main => s.main
  | .video => s.vid

/-- `MemRead(addr, 4)` (20_memory.md R50). -/
def State.memRead (s : State) (a : Word) : Except Fault Word :=
  (s.locate a).map fun p => Memory.readWord (s.instanceOf p.1) p.2

/-- `MemWrite(addr, 4, v)` (20_memory.md R51). -/
def State.memWrite (s : State) (a v : Word) : Except Fault State :=
  (s.locate a).map fun p =>
    match p.1 with
    | .main => s.setMain (Memory.writeWord s.main p.2 v)
    | .video => s.setVid (Memory.writeWord s.vid p.2 v)

/-- The byte at an address of a translated space whose MAIN has `vbase` bytes, none from N on (20_memory.md R40,
R44). -/
def byteOf (vbase : Nat) (main vid : Memory) (a : Nat) : Option Byte :=
  if a < vbase then some (Memory.read main a)
  else if a < vbase + Config.videoSize then some (Memory.read vid (a - vbase))
  else none

/-- The byte at an address in a state: what statements read memory with. -/
def State.byteAt (s : State) (a : Nat) : Option Byte := byteOf s.vbase s.main s.vid a

/-! ## The register file -/

/-- The 32 general registers (10_state.md R13). -/
abbrev RegFile := Vector Word 32

/-- The value of register `i`; register 0 reads 0 (10_state.md R14). -/
def RegFile.value (x : RegFile) (i : Nat) : Word := if i = 0 then 0 else (x[i]?).getD 0

/-- One read port: an index above 31 is fatal (10_state.md R16). -/
def RegFile.read (x : RegFile) (i : Nat) : Except Fault Word :=
  if i < Config.numRegs then .ok (RegFile.value x i) else .error (.regIndex i)

/-- The write port: register 0 discards, an index above 31 is fatal (10_state.md R14, R16). -/
def RegFile.write (x : RegFile) (i : Nat) (v : Word) : Except Fault RegFile :=
  if i < Config.numRegs then .ok (if i = 0 then x else x.setIfInBounds i v) else .error (.regIndex i)

/-- What one cycle asks of the register file (10_state.md R15). -/
structure RegFileRequest where
  /-- The two read indices, if a dual read is requested. -/
  read : Option (Nat × Nat)
  /-- Index and data, if a write is requested. -/
  write : Option (Nat × Word)
  deriving DecidableEq, Repr

/-- One cycle of the register file: a dual read, or one write, or nothing; both at once is fatal (10_state.md R15,
60_exceptions.md R185). The read outputs are a Signal, defined only in a cycle that reads. -/
def RegFile.cycle (x : RegFile) (q : RegFileRequest) : Except Fault (RegFile × Signal (Word × Word)) :=
  match q.read, q.write with
  | some _, some _ => .error .wiring
  | some (i, j), none => do
    let v1 ← RegFile.read x i
    let v2 ← RegFile.read x j
    .ok (x, .defined (v1, v2))
  | none, some (i, v) => do
    let x' ← RegFile.write x i v
    .ok (x', .undefined)
  | none, none => .ok (x, .undefined)

/-- The value of general register `i` in a state (00_scope.md R8: `x[i]`). -/
def State.reg (s : State) (i : Nat) : Word := RegFile.value s.x i

/-- Replace the register file. -/
def State.setX (s : State) (x : RegFile) : State := { s with x := x }

/-- `readDual(idx1, idx2)` (10_state.md R15): one read cycle. -/
def State.readDual (s : State) (i j : Nat) : Except Fault (Word × Word) := do
  let (_, out) ← RegFile.cycle s.x ⟨some (i, j), none⟩
  out.get .registerRead

/-- `write(idx, value)` (10_state.md R15): one write cycle. -/
def State.writeReg (s : State) (i : Nat) (v : Word) : Except Fault State := do
  let (x', _) ← RegFile.cycle s.x ⟨none, some (i, v)⟩
  .ok (s.setX x')

/-- The Write stage's commit: `x[destReg] <- v`, then Fetch (40_control_unit.md R107). -/
def State.writeBack (s : State) (v : Word) : Except Fault State := do
  let t ← s.writeReg s.destReg.toNat v
  .ok { t with cuState := .fetch }

/-! ## The render event and the fatal error -/

/-- `emit Render(VID)` (20_memory.md R62, 00_scope.md R8). -/
def State.emitRender (s : State) : State := { s with trace := s.trace ++ [.render s.vid] }

/-- Taking the one kind of exception there is: nothing of the tick is committed and the error is recorded
(40_control_unit.md R119, 60_exceptions.md R181, R190). There is no return from it (R191). -/
def State.raiseFatal (s : State) (f : Fault) : State := { s with fault := some f }

/-- The outcome of a meaning: the next state, or the fatal error that ends the run (60_exceptions.md R180). -/
def settle : Except Fault State → Host.Outcome State Fault Refusal
  | .ok s => .next s
  | .error f => .fault f

end Sys2Proof.Machine
end

