-- ==== Sys2Proof/Machine/Flags.lean ====
section
/-! DEFINITION. The ALU and its two flags (40_control_unit.md R110 to R112), the flag latch (10_state.md R20, R21). -/

namespace Sys2Proof.Machine

/-- The ALU's control input (40_control_unit.md R113). -/
inductive AluOp
  | add | sub | nand | lshift
  deriving DecidableEq, Repr

/-- The ALU's outputs (40_control_unit.md R110). -/
structure AluOut where
  result : Word
  zero : Bool
  positive : Bool
  deriving DecidableEq, Repr

/-- The ALU's result (40_control_unit.md R110, R111). The shift count is `b[4:0]` (the spec's decision D24, log 12). -/
def aluValue (op : AluOp) (a b : Word) : Word :=
  match op with
  | .add => a + b
  | .sub => a - b
  | .nand => ~~~(a &&& b)
  | .lshift => a <<< (b.extractLsb' 0 5).toNat

/-- `zeroFlag = (result == 0)` (10_state.md R20). -/
def zeroFlag (r : Word) : Bool := decide (r = 0)

/-- `positiveFlag = (result >= 0)` in two's complement; zero is positive (10_state.md R20). -/
def positiveFlag (r : Word) : Bool := decide (0 ≤ r.toInt)

/-- `compute(opcode, a, b) -> (result, zeroFlag, positiveFlag)` (40_control_unit.md R110). -/
def alu (op : AluOp) (a b : Word) : AluOut :=
  ⟨aluValue op a b, zeroFlag (aluValue op a b), positiveFlag (aluValue op a b)⟩

/-- Read the latched zero flag; fatal while the latch holds no value (10_state.md R21; the spec's decisions D1, D2,
log 7). -/
def State.readZero (s : State) : Except Fault Bool :=
  if s.flagsValid then .ok s.zf else .error (.undefinedSignal .flags)

/-- Read the latched positive flag; fatal while the latch holds no value (10_state.md R21; D1, D2, log 7). -/
def State.readPositive (s : State) : Except Fault Bool :=
  if s.flagsValid then .ok s.pf else .error (.undefinedSignal .flags)

end Sys2Proof.Machine
end

