-- ==== Sys2Proof/Machine/Operands.lean ====
section
/-! DEFINITION. The operand forms (30_encoding.md R74, R76 to R80): what the Decode stage latches for each class
(40_control_unit.md R105). Every read of a general register happens here, before anything the instruction writes. -/

namespace Sys2Proof.Machine

/-- What Decode latches for every class: the opcode, and `pc + 4` through the ALU, whose flags are dropped
(40_control_unit.md R105, 10_state.md R21). -/
def State.latchOpcode (s : State) (o : Opcode) : State :=
  { s with opLatch := o.code, nextPc := (alu .add s.pc 4).result, cuState := .execute }

/-- 3-register form: dest latched, A and B read (40_control_unit.md R105). -/
def latchThreeReg (o : Opcode) (d a b : Nat) (s : State) : Except Fault State := do
  let (v1, v2) ← s.readDual a b
  if d < Config.numRegs then
    .ok { s.latchOpcode o with destReg := regField d, rfOut1 := v1, rfOut2 := v2 }
  else .error (.regIndex d)

/-- Register+immediate form: A is source and destination (40_control_unit.md R105; the spec's decision D4, log 9). The
second read port is given index 0 (D27, log 17). -/
def latchRegImm (o : Opcode) (a : Nat) (imm : Word) (s : State) : Except Fault State := do
  let (v1, v2) ← s.readDual a 0
  .ok { s.latchOpcode o with destReg := regField a, rfOut1 := v1, rfOut2 := v2, imm := imm }

/-- 1-register form: A read (40_control_unit.md R105; second port index 0, D27, log 17). -/
def latchOneReg (o : Opcode) (a : Nat) (s : State) : Except Fault State := do
  let (v1, v2) ← s.readDual a 0
  .ok { s.latchOpcode o with rfOut1 := v1, rfOut2 := v2 }

/-- Load form: A the address register, dest latched (40_control_unit.md R105, 43_load_store.md R161; D3, D22, log 8;
second port index 0, D27, log 17). -/
def latchLoad (o : Opcode) (d a : Nat) (s : State) : Except Fault State := do
  let (v1, v2) ← s.readDual a 0
  if d < Config.numRegs then
    .ok { s.latchOpcode o with destReg := regField d, rfOut1 := v1, rfOut2 := v2 }
  else .error (.regIndex d)

/-- Store form: A the address register, B the data register, both read (40_control_unit.md R105, 43_load_store.md
R162; D3, D22, log 8). -/
def latchStore (o : Opcode) (a b : Nat) (s : State) : Except Fault State := do
  let (v1, v2) ← s.readDual a b
  .ok { s.latchOpcode o with rfOut1 := v1, rfOut2 := v2 }

/-- No-operand form: no register read (40_control_unit.md R105). -/
def latchNoOperand (o : Opcode) (s : State) : Except Fault State := .ok (s.latchOpcode o)

end Sys2Proof.Machine
end

