-- ==== Sys2Proof/Machine/Arithmetic.lean ====
section
/-! DEFINITION. The arithmetic and logic instructions (41_arithmetic.md R140 to R147). -/

namespace Sys2Proof.Machine

/-- The Execute stage of the six arithmetic opcodes: the result and the flags are latched and `pc` moves on
(40_control_unit.md R106). -/
def executeAlu (f : AluOp) (a b : Word) (s : State) : State :=
  { s with
    aluResult := (alu f a b).result
    zf := (alu f a b).zero
    pf := (alu f a b).positive
    flagsValid := true
    pc := s.nextPc
    cuState := .write }

/-- The Write stage of the six arithmetic opcodes (40_control_unit.md R107). -/
def writeAluResult (s : State) : Except Fault State := s.writeBack s.aluResult

/-- A 3-register instruction after its Fetch tick: Decode, Execute, Write (41_arithmetic.md R140). -/
def runThreeReg (o : Opcode) (f : AluOp) (d a b : Nat) (s : State) : Except Fault State := do
  let s1 ← latchThreeReg o d a b s
  writeAluResult (executeAlu f s1.rfOut1 s1.rfOut2 s1)

/-- A register+immediate instruction after its Fetch tick (41_arithmetic.md R140). An immediate outside the encoder's
range never reaches the CORE (30_encoding.md R82, log 16). -/
def runRegImm (o : Opcode) (f : AluOp) (a : Nat) (imm : Int) (s : State) : Except Fault State := do
  let s1 ← latchRegImm o a (BitVec.ofInt 32 imm) s
  writeAluResult (executeAlu f s1.rfOut1 s1.imm s1)

/-- `add rD, rA, rB` (41_arithmetic.md R141). -/
def execAdd (d a b : Nat) (s : State) : Host.Outcome State Fault Refusal :=
  settle (runThreeReg .add .add d a b s)

/-- `sub rD, rA, rB`: A is the minuend (41_arithmetic.md R142; D23, log 9). -/
def execSub (d a b : Nat) (s : State) : Host.Outcome State Fault Refusal :=
  settle (runThreeReg .sub .sub d a b s)

/-- `nand rD, rA, rB` (41_arithmetic.md R143). -/
def execNand (d a b : Nat) (s : State) : Host.Outcome State Fault Refusal :=
  settle (runThreeReg .nand .nand d a b s)

/-- `lshift rD, rA, rB`: A is shifted by `x[B][4:0]` (41_arithmetic.md R144; D23, D24, log 9, log 12). -/
def execLshift (d a b : Nat) (s : State) : Host.Outcome State Fault Refusal :=
  settle (runThreeReg .lshift .lshift d a b s)

/-- `addImmediate rA, imm` (41_arithmetic.md R145; D4, log 9). -/
def execAddImmediate (a : Nat) (imm : Int) (s : State) : Host.Outcome State Fault Refusal :=
  settle (runRegImm .addImmediate .add a imm s)

/-- `subImmediate rA, imm`: the register is the minuend (41_arithmetic.md R146; D4, log 9). -/
def execSubImmediate (a : Nat) (imm : Int) (s : State) : Host.Outcome State Fault Refusal :=
  settle (runRegImm .subImmediate .sub a imm s)

end Sys2Proof.Machine
end

