-- ==== Sys2Proof/Machine/Control.lean ====
section
/-! DEFINITION. The control-transfer instructions (42_control_transfer.md R150 to R154). -/

namespace Sys2Proof.Machine

/-- The Execute stage of `jumpToReg` (40_control_unit.md R106): the target is not checked (42_control_transfer.md
R150). -/
def executeJump (s : State) : State := { s with pc := s.rfOut1, cuState := .fetch }

/-- The Execute stage of a branch whose flag reads `taken` (40_control_unit.md R106). -/
def executeBranch (taken : Bool) (s : State) : State :=
  { s with pc := if taken then s.rfOut1 else s.nextPc, cuState := .fetch }

/-- The Execute stage of `branchIfZero`: the flags of the last arithmetic instruction (42_control_transfer.md R152,
R154; D1, D2, log 7). -/
def executeBranchIfZero (s : State) : Except Fault State := do
  let taken ← s.readZero
  .ok (executeBranch taken s)

/-- The Execute stage of `branchIfPositive` (42_control_transfer.md R153, R154; D1, D2, log 7). -/
def executeBranchIfPositive (s : State) : Except Fault State := do
  let taken ← s.readPositive
  .ok (executeBranch taken s)

/-- `jumpToReg rA` after its Fetch tick (42_control_transfer.md R151). -/
def execJumpToReg (a : Nat) (s : State) : Host.Outcome State Fault Refusal :=
  settle do
    let s1 ← latchOneReg .jumpToReg a s
    .ok (executeJump s1)

/-- `branchIfZero rA` after its Fetch tick (42_control_transfer.md R152). -/
def execBranchIfZero (a : Nat) (s : State) : Host.Outcome State Fault Refusal :=
  settle do
    let s1 ← latchOneReg .branchIfZero a s
    executeBranchIfZero s1

/-- `branchIfPositive rA` after its Fetch tick (42_control_transfer.md R153). -/
def execBranchIfPositive (a : Nat) (s : State) : Host.Outcome State Fault Refusal :=
  settle do
    let s1 ← latchOneReg .branchIfPositive a s
    executeBranchIfPositive s1

end Sys2Proof.Machine
end

