-- ==== Sys2Proof/Machine/LoadStore.lean ====
section
/-! DEFINITION. The load and store instructions (43_load_store.md R160 to R162). -/

namespace Sys2Proof.Machine

/-- The Execute stage of `load`: the word and the selection are latched and `pc` moves on (40_control_unit.md R106,
20_memory.md R52). -/
def executeLoad (addr : Word) (s : State) : Except Fault State := do
  let w ← s.memRead addr
  .ok { s with memOut := w, lastSelVideo := s.selectsVideo addr, pc := s.nextPc, cuState := .write }

/-- The Write stage of `load` (40_control_unit.md R107). -/
def writeMemOut (s : State) : Except Fault State := s.writeBack s.memOut

/-- The Execute stage of `store` (40_control_unit.md R106). -/
def executeStore (addr : Word) (s : State) : Except Fault State := do
  let t ← s.memWrite addr s.rfOut2
  .ok { t with pc := s.nextPc, cuState := .fetch }

/-- `load rD, [rA]` after its Fetch tick (43_load_store.md R161). -/
def execLoad (d a : Nat) (s : State) : Host.Outcome State Fault Refusal :=
  settle do
    let s1 ← latchLoad .load d a s
    let s2 ← executeLoad s1.rfOut1 s1
    writeMemOut s2

/-- `store [rA], rS` after its Fetch tick (43_load_store.md R162). -/
def execStore (a b : Nat) (s : State) : Host.Outcome State Fault Refusal :=
  settle do
    let s1 ← latchStore .store a b s
    executeStore s1.rfOut1 s1

end Sys2Proof.Machine
end

