-- ==== Sys2Proof/Machine/System.lean ====
section
/-! DEFINITION. The no-operand instructions (44_system.md R170 to R173) and the text form of a render event
(20_memory.md R63). -/

namespace Sys2Proof.Machine

/-- The Execute stage of `nop` (40_control_unit.md R106). -/
def executeNop (s : State) : State := { s with pc := s.nextPc, cuState := .fetch }

/-- The Execute stage of `displayFlush`: one Render event (40_control_unit.md R106, 44_system.md R171). -/
def executeDisplayFlush (s : State) : State := { s.emitRender with pc := s.nextPc, cuState := .fetch }

/-- The Execute stage of `halt` (40_control_unit.md R106). `pc` is left unchanged (the spec's decision D8, log 11). -/
def executeHalt (s : State) : State := { s with halted := true, cuState := .fetch }

/-- `nop` after its Fetch tick (44_system.md R170). -/
def execNop (s : State) : Host.Outcome State Fault Refusal :=
  settle do
    let s1 ← latchNoOperand .nop s
    .ok (executeNop s1)

/-- `displayFlush` after its Fetch tick (44_system.md R171). -/
def execDisplayFlush (s : State) : Host.Outcome State Fault Refusal :=
  settle do
    let s1 ← latchNoOperand .displayFlush s
    .ok (executeDisplayFlush s1)

/-- `halt` after its Fetch tick (44_system.md R172). -/
def execHalt (s : State) : Host.Outcome State Fault Refusal :=
  settle do
    let s1 ← latchNoOperand .halt s
    .ok (executeHalt s1)

/-- The byte a render shows at a row and column (20_memory.md R63; stride 60 is the spec's decision D13, log 15). -/
def renderCell (snap : Memory) (row col : Nat) : Byte := Memory.read snap (Config.videoStride * row + col)

/-- The rows of characters of a snapshot (20_memory.md R62, R63). How a byte that is not a printable character is
written is the sink's affair (D30, log 15). -/
def renderRows (snap : Memory) : List (List Byte) :=
  (List.range Config.videoRows).map fun row => (List.range Config.videoCols).map fun col => renderCell snap row col

/-- `renderVideoBuffer() -> sequence of rows of characters` (20_memory.md R62). -/
def State.renderVideoBuffer (s : State) : List (List Byte) := renderRows s.vid

/-- The text of a trace event (20_memory.md R63). -/
def Event.rows : Event → List (List Byte)
  | .render snap => renderRows snap

end Sys2Proof.Machine
end

