-- ==== Sys2Proof/Machine/Dispatch.lean ====
section
/-! DEFINITION. One arm per instruction: its effect from the end of its Fetch tick to its last tick
(40_control_unit.md R116, log 1). -/

namespace Sys2Proof.Machine

def exec (i : Instr) (s : State) : Host.Outcome State Fault Refusal :=
  match i with
  | .nop => Sys2Proof.Machine.execNop s
  | .addImmediate a imm => Sys2Proof.Machine.execAddImmediate a imm s
  | .subImmediate a imm => Sys2Proof.Machine.execSubImmediate a imm s
  | .add d a b => Sys2Proof.Machine.execAdd d a b s
  | .sub d a b => Sys2Proof.Machine.execSub d a b s
  | .nand d a b => Sys2Proof.Machine.execNand d a b s
  | .lshift d a b => Sys2Proof.Machine.execLshift d a b s
  | .jumpToReg a => Sys2Proof.Machine.execJumpToReg a s
  | .branchIfZero a => Sys2Proof.Machine.execBranchIfZero a s
  | .branchIfPositive a => Sys2Proof.Machine.execBranchIfPositive a s
  | .load d a => Sys2Proof.Machine.execLoad d a s
  | .store a b => Sys2Proof.Machine.execStore a b s
  | .displayFlush => Sys2Proof.Machine.execDisplayFlush s
  | .halt => Sys2Proof.Machine.execHalt s

end Sys2Proof.Machine
end

