-- ==== Sys2Proof/Machine/Stages.lean ====
section
/-! DEFINITION. The control unit stage by stage (40_control_unit.md R104 to R107): the normative, tick-level rules,
written over the latches alone. A stage reads the state the tick began with and answers the state after its commit, or
the fatal error, which discards the tick (R101, R102, R119). -/

namespace Sys2Proof.Machine

/-! ## The decoder block -/

/-- The decoder's outputs: the opcode, and a Signal for each field, defined only if the class has it (30_encoding.md
R81). -/
structure DecoderOut where
  opcode : Opcode
  a : Signal Field5
  b : Signal Field5
  dest : Signal Field5
  imm : Signal Word
  deriving DecidableEq, Repr

/-- The fields the class of an opcode populates (30_encoding.md R81). -/
def decoderFields (o : Opcode) (w : Word) : DecoderOut :=
  match o.cls with
  | .threeReg => ⟨o, .defined (fieldA w), .defined (fieldB w), .defined (fieldDest w), .undefined⟩
  | .regImm => ⟨o, .defined (fieldA w), .undefined, .undefined, .defined (immField w)⟩
  | .oneReg => ⟨o, .defined (fieldA w), .undefined, .undefined, .undefined⟩
  | .noOperand => ⟨o, .undefined, .undefined, .undefined, .undefined⟩
  | .loadForm => ⟨o, .defined (fieldA w), .undefined, .defined (fieldDest w), .undefined⟩
  | .storeForm => ⟨o, .defined (fieldA w), .defined (fieldB w), .undefined, .undefined⟩

/-- `decode(word)` (40_control_unit.md R115): the fields of one of the fourteen instructions, or the fatal verdict
(60_exceptions.md R183; in Decode by the spec's decision D26, log 13). -/
def decoder (w : Word) : Except Fault DecoderOut :=
  match Opcode.ofCode (opcodeField w) with
  | none => .error (.badOpcode (opcodeField w))
  | some o => .ok (decoderFields o w)

/-! ## The memory address bus -/

/-- The values driven on the memory's address input in a tick: `pc` in Fetch, the first register latch in the Execute
tick of load and store, nothing otherwise (20_memory.md R53, 40_control_unit.md R118). -/
def addressDrivers (s : State) : List Word :=
  (if s.cuState = .fetch then [s.pc] else []) ++
  (if s.cuState = .execute ∧ (s.opLatch = Opcode.load.code ∨ s.opLatch = Opcode.store.code) then [s.rfOut1] else [])

/-- The memory's address input in a tick (20_memory.md R52). -/
def memoryAddress (s : State) : Except Fault Word := do
  let bus ← Bus.resolve (addressDrivers s)
  bus.get .memoryAddress

/-! ## The four stages -/

/-- What Fetch latches: the word, the selection, the scratch registers reset (40_control_unit.md R104). -/
def State.afterFetch (s : State) (w : Word) : State :=
  { s with
    memOut := w
    lastSelVideo := s.selectsVideo s.pc
    nextPc := 0
    destReg := 0
    imm := 0
    aluResult := 0
    opLatch := 0
    cuState := .decode }

/-- Fetch (40_control_unit.md R104). -/
def fetchStage (s : State) : Except Fault State := do
  let a ← memoryAddress s
  let w ← s.memRead a
  .ok (s.afterFetch w)

/-- Decode (40_control_unit.md R105). -/
def decodeStage (s : State) : Except Fault State := do
  let out ← decoder s.memOut
  match out.opcode.cls with
  | .threeReg => do
    let d ← out.dest.get .decoderDest
    let a ← out.a.get .decoderA
    let b ← out.b.get .decoderB
    latchThreeReg out.opcode d.toNat a.toNat b.toNat s
  | .regImm => do
    let a ← out.a.get .decoderA
    let imm ← out.imm.get .decoderImm
    latchRegImm out.opcode a.toNat imm s
  | .oneReg => do
    let a ← out.a.get .decoderA
    latchOneReg out.opcode a.toNat s
  | .noOperand => latchNoOperand out.opcode s
  | .loadForm => do
    let d ← out.dest.get .decoderDest
    let a ← out.a.get .decoderA
    latchLoad out.opcode d.toNat a.toNat s
  | .storeForm => do
    let a ← out.a.get .decoderA
    let b ← out.b.get .decoderB
    latchStore out.opcode a.toNat b.toNat s

/-- The Execute stage of one opcode (40_control_unit.md R106). -/
def executeOpcode (o : Opcode) (s : State) : Except Fault State :=
  match o with
  | .nop => .ok (executeNop s)
  | .addImmediate => .ok (executeAlu .add s.rfOut1 s.imm s)
  | .subImmediate => .ok (executeAlu .sub s.rfOut1 s.imm s)
  | .add => .ok (executeAlu .add s.rfOut1 s.rfOut2 s)
  | .sub => .ok (executeAlu .sub s.rfOut1 s.rfOut2 s)
  | .nand => .ok (executeAlu .nand s.rfOut1 s.rfOut2 s)
  | .lshift => .ok (executeAlu .lshift s.rfOut1 s.rfOut2 s)
  | .jumpToReg => .ok (executeJump s)
  | .branchIfZero => executeBranchIfZero s
  | .branchIfPositive => executeBranchIfPositive s
  | .load => do
    let a ← memoryAddress s
    executeLoad a s
  | .store => do
    let a ← memoryAddress s
    executeStore a s
  | .displayFlush => .ok (executeDisplayFlush s)
  | .halt => .ok (executeHalt s)

/-- Execute (40_control_unit.md R106): dispatch on the latched opcode. -/
def executeStage (s : State) : Except Fault State :=
  match Opcode.ofCode s.opLatch with
  | none => .error (.badOpcode s.opLatch)
  | some o => executeOpcode o s

/-- Write (40_control_unit.md R107): the ALU result or the memory word; any other opcode is fatal (60_exceptions.md
R188). -/
def writeStage (s : State) : Except Fault State :=
  match Opcode.ofCode s.opLatch with
  | some .add => writeAluResult s
  | some .sub => writeAluResult s
  | some .nand => writeAluResult s
  | some .lshift => writeAluResult s
  | some .addImmediate => writeAluResult s
  | some .subImmediate => writeAluResult s
  | some .load => writeMemOut s
  | _ => .error (.writeNoWriteback s.opLatch)

/-- The stage the control unit's state selects (40_control_unit.md R100, R103). -/
def runStage (s : State) : Except Fault State :=
  match s.cuState with
  | .fetch => fetchStage s
  | .decode => decodeStage s
  | .execute => executeStage s
  | .write => writeStage s

/-! ## What `step` uses -/

/-- The instruction in the memory output latch, or the fatal verdict of the Decode stage (30_encoding.md R84). -/
def latchedInstr (s : State) : Except Fault Instr :=
  match decodeWord s.memOut with
  | some i => .ok i
  | none => .error (.badOpcode (opcodeField s.memOut))

/-- The rest of an instruction that stands at its Execute stage: Execute, then Write if the opcode has it
(40_control_unit.md R103). -/
def finishExecute (s : State) : Except Fault State := do
  let t ← executeStage s
  if t.cuState = .write then writeStage t else .ok t

end Sys2Proof.Machine
end

