-- ==== Sys2Proof/Machine/Tick.lean ====
section
/-! DEFINITION. The block's interface (70_reset_and_hazards.md R210): construct, tick, debugRead. -/

namespace Sys2Proof.Machine

/-! ## tick -/

/-- What a call of `tick()` answers the host: the halted flag after the commit, or the fatal error (70_reset_and_hazards.md
R210, 40_control_unit.md R109; D14, log 19). -/
inductive TickResult
  | returned (halted : Bool)
  | fatal (f : Fault)
  deriving DecidableEq, Repr

/-- One clock cycle (40_control_unit.md R100): a faulted machine reports its fault again (60_exceptions.md R181), a
halted one does nothing (R108), a running one performs one stage, and a fatal error commits nothing (R119). -/
def tick (s : State) : State × TickResult :=
  match s.fault with
  | some f => (s, .fatal f)
  | none =>
    if s.halted then (s, .returned true)
    else
      match runStage s with
      | .ok t => (t, .returned t.halted)
      | .error f => (s.raiseFatal f, .fatal f)

/-- The state after `k` ticks (70_reset_and_hazards.md R210). -/
def tickN : Nat → State → State
  | 0, s => s
  | k + 1, s => tickN k (tick s).1

/-! ## construct -/

/-- The byte of the image at an address below `4 * image.length` (70_reset_and_hazards.md R212). -/
def imageByte (image : List Word) (a : Nat) : Byte :=
  ((wordBytes ((image[a / 4]?).getD 0))[a % 4]?).getD 0

/-- The contents of the address space at construction: the image from address 0, `MEM_INIT` elsewhere (10_state.md
R30). -/
def initialByte (image : List Word) (memInit : Nat → Byte) (a : Nat) : Byte :=
  if a < 4 * image.length then imageByte image a else memInit a

/-- The machine with `mainSize` bytes of MAIN, the image at address 0 and `memInit` everywhere else, all else as at reset
(70_reset_and_hazards.md R211, R212). -/
def State.built (mainSize : Nat) (image : List Word) (memInit : Nat → Byte) : State :=
  { State.reset with
    mainSize := mainSize
    main := Memory.ofContents mainSize (initialByte image memInit)
    vid := Memory.ofContents Config.videoSize fun o => initialByte image memInit (mainSize + o) }

/-- Construction, which is reset (70_reset_and_hazards.md R211, R212), of a machine of `n` bytes. A capacity outside
00_scope.md R7 and an image longer than main memory are refused (D10, D12, log 20). -/
def State.construct (n : Nat) (image : List Word) (memInit : Nat → Byte) : Except Refusal State :=
  if ¬ Config.CapacityOk n then .error (.capacityOutOfRange n)
  else if n - Config.videoSize < 4 * image.length then .error (.imageTooLong image.length)
  else .ok (State.built (n - Config.videoSize) image memInit)

/-! ## debugRead -/

/-- The out-of-band read port: the word at an address as of the last commit, or the rejection; the state is not an
output (20_memory.md R64; D29, log 19). -/
def debugRead (s : State) (a : Word) : Except Fault Word := s.memRead a

end Sys2Proof.Machine
end

