-- ==== Sys2Proof/Machine/Step.lean ====
section
/-! DEFINITION. One step: one instruction, from its Fetch tick to its last (40_control_unit.md R116, log 1). -/

namespace Sys2Proof.Machine

/-- One instruction. A faulted machine stays stopped on its fault (60_exceptions.md R181); a halted one does nothing
(40_control_unit.md R108); at Fetch the next instruction is fetched, decoded and run; in the middle of an instruction
the rest of it is run (log 1). -/
def step (s : State) : Host.Outcome State Fault Refusal :=
  match s.fault with
  | some f => .fault f
  | none =>
    if s.halted then .next s
    else
      match s.cuState with
      | .fetch =>
        match fetchStage s with
        | .error f => .fault f
        | .ok s1 =>
          match latchedInstr s1 with
          | .error f => .fault f
          | .ok i => exec i s1
      | .decode =>
        match latchedInstr s with
        | .error f => .fault f
        | .ok i => exec i s
      | .execute => settle (finishExecute s)
      | .write => settle (writeStage s)

/-- `s` with the instruction whose bits are `w` (numbered as the opcode table numbers them, the bits above `nbits`
zero) where the next fetch reads it, and the machine about to fetch: `cuState` Fetch, neither halted nor faulted
(log 18). -/
def State.withFetchWord (s : State) (nbits w : Nat) : State :=
  match s.memWrite s.pc (BitVec.ofNat 32 (w % 2 ^ nbits)) with
  | .ok t => { t with cuState := .fetch, halted := false, fault := none }
  | .error _ => { s with cuState := .fetch, halted := false, fault := none }

end Sys2Proof.Machine
end

