-- ==== Sys2Proof/Safety.lean ====
section
/-! DEFINITION. The terms in which claims are stated: the machine about to fetch, the invariant of its states, how a
run ends (70_reset_and_hazards.md R215), and what an instruction leaves unchanged. -/

namespace Sys2Proof.Machine

/-! ## Between instructions -/

/-- A running machine about to fetch: neither halted nor faulted, `cuState` Fetch (40_control_unit.md R116). -/
abbrev State.Ready (s : State) : Prop := s.cuState = .fetch ∧ s.halted = false ∧ s.fault = none

/-- The word at `pc` is readable and decodes to `i`. -/
abbrev State.Fetches (s : State) (i : Instr) : Prop := (s.memRead s.pc).toOption.bind decodeWord = some i

/-- The legal addresses of a machine (20_memory.md R47). -/
abbrev State.Legal (s : State) (a : Word) : Prop :=
  a.toNat + 4 ≤ s.vbase ∨ (s.vbase ≤ a.toNat ∧ a.toNat + 4 ≤ s.capacity)

/-! ## The invariant -/

/-- Both memory instances are in canonical form and inside their capacities (20_memory.md R43). -/
abbrev State.MemoryOk (s : State) : Prop :=
  Memory.wf s.main = true ∧ Memory.below s.mainSize s.main = true ∧
  Memory.wf s.vid = true ∧ Memory.below Config.videoSize s.vid = true

/-- The entry of the hardwired register holds 0 (10_state.md R14, R31). -/
abbrev State.ZeroOk (s : State) : Prop := s.x[0] = 0

/-- A latched zero flag comes with a latched positive flag (10_state.md R21). -/
abbrev State.FlagsOk (s : State) : Prop := s.flagsValid = true → s.zf = true → s.pf = true

/-- The stage agrees with the latched opcode (40_control_unit.md R103, R105): Execute with an assigned opcode and
`nextPc = pc + 4`, Write with a write-back opcode. -/
abbrev State.StageOk (s : State) : Prop :=
  (s.cuState = .execute → (Opcode.ofCode s.opLatch).isSome = true ∧ s.nextPc = s.pc + 4) ∧
  (s.cuState = .write → (Opcode.ofCode s.opLatch).any Opcode.writesBack = true)

/-- A halted machine rests at Fetch and is not faulted (44_system.md R172, 60_exceptions.md R181). -/
abbrev State.HaltOk (s : State) : Prop := s.halted = true → s.cuState = .fetch ∧ s.fault = none

/-- A snapshot is a canonical image of the video buffer (20_memory.md R62). -/
def Event.ok : Event → Bool
  | .render snap => Memory.wf snap && Memory.below Config.videoSize snap

/-- Every event of the trace is a canonical snapshot. -/
abbrev State.TraceOk (s : State) : Prop := s.trace.all Event.ok = true

/-- What holds of every state a run reaches. -/
abbrev State.Inv (s : State) : Prop :=
  Config.CapacityOk s.capacity ∧ s.MemoryOk ∧ s.ZeroOk ∧ s.FlagsOk ∧ s.StageOk ∧ s.HaltOk ∧ s.TraceOk

/-! ## How a run ends -/

/-- After `k` ticks the machine is halted (70_reset_and_hazards.md R215, HALTED). -/
def HaltedAfter (k : Nat) (s : State) : Prop := (tickN k s).halted = true

/-- After `k` ticks the machine is faulted with `f` (70_reset_and_hazards.md R215, FAULTED). -/
def FaultedAfter (k : Nat) (f : Fault) (s : State) : Prop := (tickN k s).fault = some f

/-- A step that does not fault: what a safe run is made of (60_exceptions.md R180). -/
def SafeStep (s : State) : Prop := ∃ t, step s = .next t

/-- A run of `k` instructions none of which faults. -/
def SafeRun (k : Nat) (s : State) : Prop := ∃ t, Sys2Proof.core.run k s = .next t

/-! ## Frames -/

/-- Every general register but `d` holds what it held. -/
def SameRegsExcept (d : Nat) (s t : State) : Prop := ∀ r, r < 32 → r ≠ d → t.reg r = s.reg r

/-- Every general register holds what it held. -/
def SameRegs (s t : State) : Prop := ∀ r, r < 32 → t.reg r = s.reg r

/-- The flag latch holds what it held. -/
def SameFlags (s t : State) : Prop := t.zf = s.zf ∧ t.pf = s.pf ∧ t.flagsValid = s.flagsValid

/-- Every byte of memory, the video buffer's among them, reads as it read. -/
def SameMemory (s t : State) : Prop := ∀ a, t.byteAt a = s.byteAt a

/-- Every byte outside the four at `addr` reads as it read. -/
def SameMemoryExcept (addr : Word) (s t : State) : Prop :=
  ∀ a : Nat, (a < addr.toNat ∨ addr.toNat + 4 ≤ a) → t.byteAt a = s.byteAt a

/-- The size of MAIN, and with it the capacity, and the recorded fault are what they were. -/
def SameCondition (s t : State) : Prop := t.mainSize = s.mainSize ∧ t.fault = s.fault

/-- The memory's output latch keeps its value (20_memory.md R53). -/
def SameMemOut (s t : State) : Prop := t.memOut = s.memOut ∧ t.lastSelVideo = s.lastSelVideo

/-- What no instruction but `halt` and `displayFlush` touches: halted flag, trace, capacity, recorded fault. -/
def SameRun (s t : State) : Prop := t.halted = s.halted ∧ t.trace = s.trace ∧ SameCondition s t

/-- The state a program or the interface can observe (10_state.md R31): all but the latches internal to one
instruction. -/
def SameArchitecture (s t : State) : Prop :=
  SameRegs s t ∧ SameFlags s t ∧ SameMemory s t ∧ t.pc = s.pc ∧ t.halted = s.halted ∧ t.trace = s.trace ∧
  t.mainSize = s.mainSize

end Sys2Proof.Machine
end

