-- ==== Sys2Proof/Certificates/Slice0/Obligations.lean ====
section
/-! DEFINITION. The statements for the provers, and the shapes they share. -/

namespace Sys2Proof.Claims

open Sys2Proof.Machine

/-! ## Shapes -/

/-- The four bytes at `a` are those of `w`, most significant first (20_memory.md R41). -/
def WordAt (s : State) (a w : Word) : Prop :=
  s.byteAt a.toNat = some (w.extractLsb' 24 8) ∧ s.byteAt (a.toNat + 1) = some (w.extractLsb' 16 8) ∧
  s.byteAt (a.toNat + 2) = some (w.extractLsb' 8 8) ∧ s.byteAt (a.toNat + 3) = some (w.extractLsb' 0 8)

/-- From a machine about to fetch it, the instruction's step is `n` ticks, and the control unit is back at Fetch after
the last of them and not before (70_reset_and_hazards.md R217). -/
def TakesTicks (i : Instr) (n : Nat) : Prop :=
  ∀ s t : State, s.Ready → s.Fetches i → step s = .next t →
    tickN n s = t ∧ t.cuState = .fetch ∧ ∀ k, 0 < k → k < n → (tickN k s).cuState ≠ .fetch

/-- The flag latch after an ALU result `r`: zero if `r` is 0, positive if bit 31 of `r` is clear (10_state.md R20). -/
def FlagsOf (r : Word) (t : State) : Prop :=
  (t.zf = true ↔ r = 0) ∧ (t.pf = true ↔ r.msb = false) ∧ t.flagsValid = true

/-- The whole effect of an instruction that writes `r` to register `d` and the flags of `r`: the register (a write to
register 0 is discarded), the flags, `pc + 4`, and nothing else. -/
def WritesResult (d : Nat) (r : Word) (s t : State) : Prop :=
  (d ≠ 0 → t.reg d = r) ∧ t.reg 0 = 0 ∧ FlagsOf r t ∧ t.pc = s.pc + 4 ∧ t.cuState = .fetch ∧
  SameRegsExcept d s t ∧ SameMemory s t ∧ SameMemOut s t ∧ SameRun s t

/-- Every 3-register form completes with `f` of the A and B registers, as they were, in the destination. -/
def ThreeRegResult (mk : Nat → Nat → Nat → Instr) (f : Word → Word → Word) : Prop :=
  ∀ (s : State) (d a b : Nat), d < 32 → a < 32 → b < 32 →
    ∃ t, exec (mk d a b) s = .next t ∧ WritesResult d (f (s.reg a) (s.reg b)) s t

/-- Every register+immediate form completes with `f` of the register, as it was, and the sign-extended immediate in
the same register. -/
def RegImmResult (mk : Nat → Int → Instr) (f : Word → Word → Word) : Prop :=
  ∀ (s : State) (a : Nat) (imm : Int), a < 32 → -2097152 ≤ imm → imm ≤ 2097151 →
    ∃ t, exec (mk a imm) s = .next t ∧ WritesResult a (f (s.reg a) (BitVec.ofInt 32 imm)) s t

/-- The frame of an instruction that changes `pc` and nothing else a program or the interface sees. -/
def OnlyPc (s t : State) : Prop :=
  t.cuState = .fetch ∧ SameRegs s t ∧ SameFlags s t ∧ SameMemory s t ∧ SameMemOut s t ∧ SameRun s t

/-- A branch on the latched flag: with a latch that holds flags it completes at the target or at `pc + 4`; with an
empty latch it is fatal. -/
def BranchResult (mk : Nat → Instr) (flag : State → Bool) : Prop :=
  ∀ (s : State) (a : Nat), a < 32 →
    (s.flagsValid = true →
      ∃ t, exec (mk a) s = .next t ∧ t.pc = (if flag s then s.reg a else s.pc + 4) ∧ OnlyPc s t) ∧
    (s.flagsValid = false → exec (mk a) s = .fault (.undefinedSignal .flags))

/-- The register numbers an instruction names. -/
def regsOf : Instr → List Nat
  | .nop => []
  | .addImmediate a _ => [a]
  | .subImmediate a _ => [a]
  | .add d a b => [d, a, b]
  | .sub d a b => [d, a, b]
  | .nand d a b => [d, a, b]
  | .lshift d a b => [d, a, b]
  | .jumpToReg a => [a]
  | .branchIfZero a => [a]
  | .branchIfPositive a => [a]
  | .load d a => [d, a]
  | .store a b => [a, b]
  | .displayFlush => []
  | .halt => []

/-- The destination index an instruction latches, or the one latched before (40_control_unit.md R105). -/
def destAfter (s : State) : Instr → Field5
  | .addImmediate a _ | .subImmediate a _ => BitVec.ofNat 5 a
  | .add d _ _ | .sub d _ _ | .nand d _ _ | .lshift d _ _ | .load d _ => BitVec.ofNat 5 d
  | .nop | .jumpToReg _ | .branchIfZero _ | .branchIfPositive _ | .store _ _ | .displayFlush | .halt => s.destReg

/-- The immediate an instruction latches, or the one latched before (40_control_unit.md R105). -/
def immAfter (s : State) : Instr → Word
  | .addImmediate _ imm | .subImmediate _ imm => BitVec.ofInt 32 imm
  | .nop | .add _ _ _ | .sub _ _ _ | .nand _ _ _ | .lshift _ _ _ | .jumpToReg _ | .branchIfZero _
  | .branchIfPositive _ | .load _ _ | .store _ _ | .displayFlush | .halt => s.imm

/-- The first read latch after an instruction: its A register, as it was, or what the latch held if it has no operand
(40_control_unit.md R105). -/
def read1After (s : State) : Instr → Word
  | .addImmediate a _ | .subImmediate a _ | .jumpToReg a | .branchIfZero a | .branchIfPositive a => s.reg a
  | .add _ a _ | .sub _ a _ | .nand _ a _ | .lshift _ a _ | .load _ a | .store a _ => s.reg a
  | .nop | .displayFlush | .halt => s.rfOut1

/-- The second read latch after an instruction: its B register, as it was; 0 if it has the one operand register A; what
the latch held if it has none (40_control_unit.md R105). -/
def read2After (s : State) : Instr → Word
  | .add _ _ b | .sub _ _ b | .nand _ _ b | .lshift _ _ b | .store _ b => s.reg b
  | .addImmediate _ _ | .subImmediate _ _ | .jumpToReg _ | .branchIfZero _ | .branchIfPositive _ | .load _ _ => 0
  | .nop | .displayFlush | .halt => s.rfOut2

/-- The ALU result latch after an instruction: the result of the six arithmetic ones, or what the latch held
(40_control_unit.md R106). -/
def resultAfter (s : State) : Instr → Word
  | .addImmediate a imm => s.reg a + BitVec.ofInt 32 imm
  | .subImmediate a imm => s.reg a - BitVec.ofInt 32 imm
  | .add _ a b => s.reg a + s.reg b
  | .sub _ a b => s.reg a - s.reg b
  | .nand _ a b => ~~~(s.reg a &&& s.reg b)
  | .lshift _ a b => s.reg a <<< ((s.reg b).toNat % 32)
  | .nop | .jumpToReg _ | .branchIfZero _ | .branchIfPositive _ | .load _ _ | .store _ _ | .displayFlush | .halt =>
    s.aluResult

/-- The memory output latch after an instruction: for load the word at the address in register A and the instance it
came from, for every other instruction what the latch held (40_control_unit.md R106, 20_memory.md R53). -/
def MemOutAfter (s t : State) : Instr → Prop
  | .load _ a => WordAt s (s.reg a) t.memOut ∧ t.lastSelVideo = decide (s.vbase ≤ (s.reg a).toNat)
  | .nop | .addImmediate _ _ | .subImmediate _ _ | .add _ _ _ | .sub _ _ _ | .nand _ _ _ | .lshift _ _ _
  | .jumpToReg _ | .branchIfZero _ | .branchIfPositive _ | .store _ _ | .displayFlush | .halt => SameMemOut s t

/-- The opcode values that name no instruction (30_encoding.md R84). -/
def unassigned : List Field5 := [8, 11, 12, 13, 18, 19, 20, 21, 22, 23, 24, 25, 26, 27, 28, 29, 30, 31]

/-- The arithmetic opcodes (40_control_unit.md R103). -/
def arithmetic : List Field5 := [1, 2, 3, 4, 5, 6]

end Sys2Proof.Claims

open Sys2Proof Sys2Proof.Machine Sys2Proof.Claims

/-! ## Encoding -/

/-- Seventeen of the words of 30_encoding.md section 8, written out there from the layouts, decode to the instructions
they stand for, at least one for each of the fourteen. The load word and the store word rest on the spec's decision D3
(log 8). -/
def Obligations.WrittenWordsDecode : Prop :=
  decodeWord 0x00000000 = some .nop ∧ decodeWord 0x00000011 = some .halt ∧
  decodeWord 0x00000010 = some .displayFlush ∧ decodeWord 0x00019021 = some (.addImmediate 1 100) ∧
  decodeWord 0xFFFFFC41 = some (.addImmediate 2 (-1)) ∧ decodeWord 0x800000E1 = some (.addImmediate 7 (-2097152)) ∧
  decodeWord 0x7FFFFCE1 = some (.addImmediate 7 2097151) ∧ decodeWord 0x0000C822 = some (.subImmediate 1 50) ∧
  decodeWord 0x000FFFE3 = some (.add 31 31 31) ∧ decodeWord 0x00018824 = some (.sub 3 1 2) ∧
  decodeWord 0x00008C45 = some (.nand 1 2 3) ∧ decodeWord 0x000218A6 = some (.lshift 4 5 6) ∧
  decodeWord 0x000003E7 = some (.jumpToReg 31) ∧ decodeWord 0x00000229 = some (.branchIfZero 17) ∧
  decodeWord 0x0000012A = some (.branchIfPositive 9) ∧ decodeWord 0x000F83CE = some (.load 31 30) ∧
  decodeWord 0x00007FCF = some (.store 30 31)

/-- The decoder round trip of 30_encoding.md section 6, for every operand at every value, through words and through
the bytes memory holds. The slots of load and store are the spec's decision D3 (log 8). -/
def Obligations.DecodeOfEncodeIsIdentity : Prop :=
  ∀ i : Instr, i.WellFormed → decodeWord (encode i) = some i ∧ decode (wordBytes (encode i)) = .ok (i, [])

/-- A word that decodes decodes to a well-formed instruction, whose own word is the word with the bits its class does
not use cleared; and any other value of those bits decodes to the same instruction (30_encoding.md section 5; the
spec's decision D17, log 13). -/
def Obligations.UnusedBitsAreIgnored : Prop :=
  ∀ (w : Word) (i : Instr), decodeWord w = some i →
    i.WellFormed ∧ encode i = w &&& i.opcode.usedMask ∧
    ∀ w' : Word, w' &&& i.opcode.usedMask = w &&& i.opcode.usedMask → decodeWord w' = some i

/-- A word decodes to nothing exactly when its opcode is unassigned; then the Decode tick is fatal with the opcode,
changing nothing but the recorded error, and otherwise it goes on (30_encoding.md section 5, 40_control_unit.md section
1, 60_exceptions.md section 1). In Decode is the spec's decision D26 (log 13), what the fatal tick leaves its D15
(log 14). -/
def Obligations.UnassignedOpcodesAreFatalInDecode : Prop :=
  (∀ w : Word, decodeWord w = none ↔ opcodeField w ∈ unassigned) ∧
  ∀ s : State, s.cuState = .decode → s.halted = false → s.fault = none →
    (opcodeField s.memOut ∈ unassigned →
      tick s = (s.raiseFatal (.badOpcode (opcodeField s.memOut)), .fatal (.badOpcode (opcodeField s.memOut)))) ∧
    (opcodeField s.memOut ∉ unassigned → (tick s).2 = .returned false)

/-- The encoder as the shifts and ors of 30_encoding.md section 6, for operands in range; the slots of load and store
are the spec's decision D3 (log 8). -/
def Obligations.EncoderIsShiftsAndOrs : Prop :=
  ∀ d a b : Nat, d < 32 → a < 32 → b < 32 →
    (∀ p ∈ [(Instr.add d a b, 3#32), (Instr.sub d a b, 4#32), (Instr.nand d a b, 5#32), (Instr.lshift d a b, 6#32)],
      encode p.1 = (BitVec.ofNat 32 d <<< 15) ||| (BitVec.ofNat 32 b <<< 10) ||| (BitVec.ofNat 32 a <<< 5) ||| p.2) ∧
    (∀ imm : Int, -2097152 ≤ imm → imm ≤ 2097151 →
      ∀ p ∈ [(Instr.addImmediate a imm, 1#32), (Instr.subImmediate a imm, 2#32)],
        encode p.1 = ((BitVec.ofInt 32 imm &&& 0x3FFFFF#32) <<< 10) ||| (BitVec.ofNat 32 a <<< 5) ||| p.2) ∧
    (∀ p ∈ [(Instr.jumpToReg a, 7#32), (Instr.branchIfZero a, 9#32), (Instr.branchIfPositive a, 10#32)],
      encode p.1 = (BitVec.ofNat 32 a <<< 5) ||| p.2) ∧
    encode .nop = 0#32 ∧ encode .displayFlush = 16#32 ∧ encode .halt = 17#32 ∧
    encode (.load d a) = (BitVec.ofNat 32 d <<< 15) ||| (BitVec.ofNat 32 a <<< 5) ||| 14#32 ∧
    encode (.store a b) = (BitVec.ofNat 32 b <<< 10) ||| (BitVec.ofNat 32 a <<< 5) ||| 15#32

/-- R72: each register field is the word shifted right by 5, 10 or 15 and masked with 0x1F, and so names a register 0
to 31. -/
def Obligations.RegisterFieldsAreShiftedAndMasked : Prop :=
  ∀ w : Word,
    (fieldA w).setWidth 32 = (w >>> 5) &&& 0x1F#32 ∧ (fieldB w).setWidth 32 = (w >>> 10) &&& 0x1F#32 ∧
    (fieldDest w).setWidth 32 = (w >>> 15) &&& 0x1F#32 ∧
    (fieldA w).toNat ≤ 31 ∧ (fieldB w).toNat ≤ 31 ∧ (fieldDest w).toNat ≤ 31

/-- R73: the immediate is `w[31:10]` sign-extended, which is the word shifted right arithmetically by 10; its range;
its sign is bit 31 of the word; and the decoder delivers an immediate to the register+immediate class alone. -/
def Obligations.ImmediateIsTheWordShiftedArithmetically : Prop :=
  (∀ w : Word,
    immField w = w.sshiftRight 10 ∧ (immField w).toInt = (w.extractLsb' 10 22).toInt ∧
    -2097152 ≤ (immField w).toInt ∧ (immField w).toInt ≤ 2097151 ∧ (immField w).msb = w.msb) ∧
  ∀ (w : Word) (out : DecoderOut), decoder w = .ok out →
    out.imm = if out.opcode = .addImmediate ∨ out.opcode = .subImmediate then .defined (immField w) else .undefined

/-- The control unit reads no decoder field its class leaves undefined: the only error of a Decode stage is the
unassigned opcode (30_encoding.md section 4; load and store by the spec's decision D3, log 8). -/
def Obligations.DecodeReadsOnlyDefinedFields : Prop :=
  ∀ (s : State) (f : Fault), decodeStage s = .error f →
    f = .badOpcode (opcodeField s.memOut) ∧ opcodeField s.memOut ∈ unassigned

/-! ## ALU, registers, memory -/

/-- The ALU's four operations on all operands, as numbers, and its flags (40_control_unit.md section 3; the shift
count for a negative `b` is the spec's decision D24, log 12). -/
def Obligations.AluComputesItsFourOperations : Prop :=
  ∀ a b : Word,
    (alu .add a b).result.toNat = (a.toNat + b.toNat) % 2 ^ 32 ∧
    (alu .sub a b).result.toNat = (a.toNat + (2 ^ 32 - b.toNat)) % 2 ^ 32 ∧
    (∀ i, i < 32 → (alu .nand a b).result.getLsbD i = !(a.getLsbD i && b.getLsbD i)) ∧
    (alu .lshift a b).result.toNat = a.toNat * 2 ^ (b.toNat % 32) % 2 ^ 32 ∧
    ∀ f : AluOp,
      ((alu f a b).zero = true ↔ (alu f a b).result = 0) ∧
      ((alu f a b).positive = true ↔ 0 ≤ (alu f a b).result.toInt) ∧
      ((alu f a b).positive = true ↔ (alu f a b).result.msb = false) ∧
      ((alu f a b).zero = true → (alu f a b).positive = true)

/-- Signals and Registers (10_state.md section 1): a fresh Signal is undefined and fatal to read, a set one gives its
value; a driven Register reads its old value until the tick and the driven one after it, and keeps it while nothing
drives it. -/
def Obligations.SignalsAndRegisters : Prop :=
  (∀ (name : SignalName) (sig : Signal Word) (v : Word),
    Signal.get name (Signal.undefined : Signal Word) = .error (.undefinedSignal name) ∧
    Signal.get name (sig.set v) = .ok v ∧ (sig.set v).isDefined = true ∧
    Signal.get name sig.undefine = .error (.undefinedSignal name) ∧ sig.undefine.isDefined = false) ∧
  ∀ (r : Reg Word) (u v : Word),
    (Reg.init v).read = v ∧ (Reg.init v).tick.read = v ∧ (r.drive v).read = r.read ∧ (r.drive v).tick.read = v ∧
    (r.drive v).tick.tick.read = v ∧ ((r.drive u).drive v).tick.read = v

/-- The register file (10_state.md section 2): register 0 reads 0 on either port and a write to it is accepted and
changes nothing; a write to another register is read back on either port and changes no other; a read and a write in
one cycle are fatal (the spec's decision D15). -/
def Obligations.RegisterFilePorts : Prop :=
  ∀ (s : State) (v : Word) (i j : Nat), 0 < i → i < 32 → j < 32 →
    s.readDual 0 j = .ok (0, s.reg j) ∧ s.readDual j 0 = .ok (s.reg j, 0) ∧ s.writeReg 0 v = .ok s ∧
    (∃ t, s.writeReg i v = .ok t ∧ t.readDual i 0 = .ok (v, 0) ∧ t.readDual i i = .ok (v, v) ∧
      (j ≠ i → t.readDual j i = .ok (s.reg j, v))) ∧
    ∀ q r, RegFile.cycle s.x ⟨some q, some r⟩ = .error .wiring

/-- An index above 31 is fatal on every port, and no tick of any machine raises it (60_exceptions.md section 2). That an
instruction as text which names such a register faults in `exec` is the model's choice (log 16): no word encodes one. -/
def Obligations.RegisterIndexAbove31IsFatal : Prop :=
  (∀ (x : RegFile) (i : Nat) (v : Word), 31 < i →
    RegFile.read x i = .error (.regIndex i) ∧ RegFile.write x i v = .error (.regIndex i)) ∧
  (∀ (s : State) (i : Instr), (∃ r ∈ regsOf i, 31 < r) →
    ∃ r ∈ regsOf i, 31 < r ∧ exec i s = .fault (.regIndex r)) ∧
  ∀ (s : State) (idx : Nat), s.fault = none → (tick s).2 ≠ .fatal (.regIndex idx)

/-- Two drivers on one bus are fatal, and the one bus the model has, the memory's address input, never has two
(60_exceptions.md section 2, 40_control_unit.md section 2). Which of the shared inputs is a bus and who drives it is
the model's choice (log 22). -/
def Obligations.BusContentionIsUnreachable : Prop :=
  (∀ vs : List Word, Bus.resolve vs = .error .busContention ↔ 2 ≤ vs.length) ∧
  ∀ s : State, (addressDrivers s).length ≤ 1 ∧ (s.fault = none → (tick s).2 ≠ .fatal .busContention)

/-- R188: the Write stage is fatal for every opcode that has no write-back, and no machine that meets the invariant
raises that error. -/
def Obligations.WriteWithoutWriteBackIsUnreachable : Prop :=
  (∀ s : State, s.opLatch ∉ arithmetic → s.opLatch ≠ 14 → writeStage s = .error (.writeNoWriteback s.opLatch)) ∧
  ∀ (s : State) (op : Field5), s.Inv → s.fault = none → (tick s).2 ≠ .fatal (.writeNoWriteback op)

/-- R46: an instance of `cap` bytes accepts exactly the offsets up to `cap - 4`, so that all four bytes lie inside it,
and any other is fatal; and every word access of the machine meets that of the instance it falls in. -/
def Obligations.InstanceRangeCheck : Prop :=
  (∀ (cap o : Nat) (a : Word), 4 ≤ cap →
    (Memory.check cap o a = .ok () ↔ o ≤ cap - 4) ∧ (cap - 4 < o → Memory.check cap o a = .error (.addrRange a)) ∧
    (o ≤ cap - 4 → o + 3 < cap)) ∧
  ∀ (s : State) (a : Word), 4 ≤ s.mainSize →
    ((∃ w, s.memRead a = .ok w) ∨ (∃ v t, s.memWrite a v = .ok t)) →
      (a.toNat < s.mainSize ∧ a.toNat ≤ s.mainSize - 4) ∨ (s.mainSize ≤ a.toNat ∧ a.toNat - s.mainSize ≤ 4096 - 4)

/-- The legal addresses of the translated memory (20_memory.md section 5; a straddling access is fatal by the spec's
decision D28, log 10): reads and writes go through exactly there, and elsewhere are fatal with the address. -/
def Obligations.LegalAddresses : Prop :=
  ∀ (s : State) (a v : Word),
    (s.Legal a → (∃ w, s.memRead a = .ok w) ∧ ∃ t, s.memWrite a v = .ok t) ∧
    (¬ s.Legal a → s.memRead a = .error (.addrRange a) ∧ s.memWrite a v = .error (.addrRange a))

/-- The memory round trip (20_memory.md sections 2 and 6): the word written is read back, its bytes lie most
significant first, every other byte and everything else in the state is as before. -/
def Obligations.MemoryRoundTrip : Prop :=
  ∀ (s t : State) (a v : Word), s.MemoryOk → s.memWrite a v = .ok t →
    t.memRead a = .ok v ∧ WordAt t a v ∧ SameMemoryExcept a s t ∧ t.MemoryOk ∧
    t = { s with main := t.main, vid := t.vid }

/-- A word read is the four bytes from its address, most significant first (20_memory.md sections 2 and 6). -/
def Obligations.ReadsAreBigEndian : Prop :=
  ∀ (s : State) (a w : Word), s.memRead a = .ok w → WordAt s a w

/-! ## What each instruction does -/

/-- R141, `add`: encoding, effect, frame, ticks, example. -/
def Obligations.AddInstruction : Prop :=
  (∀ w : Word, opcodeField w = 3 →
    decodeWord w = some (.add (fieldDest w).toNat (fieldA w).toNat (fieldB w).toNat)) ∧
  ThreeRegResult .add (fun a b => a + b) ∧ (∀ d a b, TakesTicks (.add d a b) 4) ∧
  decodeWord 0x00018823 = some (.add 3 1 2)

/-- `sub` (41_arithmetic.md section 2): A is the minuend, the spec's decision D23 (log 9). -/
def Obligations.SubInstruction : Prop :=
  (∀ w : Word, opcodeField w = 4 →
    decodeWord w = some (.sub (fieldDest w).toNat (fieldA w).toNat (fieldB w).toNat)) ∧
  ThreeRegResult .sub (fun a b => a - b) ∧ (∀ d a b, TakesTicks (.sub d a b) 4) ∧
  decodeWord 0x00018824 = some (.sub 3 1 2)

/-- R143, `nand`: encoding, effect, frame, ticks, example. -/
def Obligations.NandInstruction : Prop :=
  (∀ w : Word, opcodeField w = 5 →
    decodeWord w = some (.nand (fieldDest w).toNat (fieldA w).toNat (fieldB w).toNat)) ∧
  ThreeRegResult .nand (fun a b => ~~~(a &&& b)) ∧ (∀ d a b, TakesTicks (.nand d a b) 4) ∧
  decodeWord 0x00008C45 = some (.nand 1 2 3)

/-- `lshift` (41_arithmetic.md section 2): A shifted by B modulo 32, the spec's decisions D23, D24 (log 9, log 12). -/
def Obligations.LshiftInstruction : Prop :=
  (∀ w : Word, opcodeField w = 6 →
    decodeWord w = some (.lshift (fieldDest w).toNat (fieldA w).toNat (fieldB w).toNat)) ∧
  ThreeRegResult .lshift (fun a b => a <<< (b.toNat % 32)) ∧ (∀ d a b, TakesTicks (.lshift d a b) 4) ∧
  decodeWord 0x000218A6 = some (.lshift 4 5 6)

/-- `addImmediate` (41_arithmetic.md section 3): source and destination are register A, the spec's decision D4
(log 9). -/
def Obligations.AddImmediateInstruction : Prop :=
  (∀ w : Word, opcodeField w = 1 →
    decodeWord w = some (.addImmediate (fieldA w).toNat (w.extractLsb' 10 22).toInt)) ∧
  RegImmResult .addImmediate (fun a imm => a + imm) ∧ (∀ a imm, TakesTicks (.addImmediate a imm) 4)

/-- `subImmediate` (41_arithmetic.md section 3): the register is the minuend and the destination, the spec's decision
D4 (log 9). -/
def Obligations.SubImmediateInstruction : Prop :=
  (∀ w : Word, opcodeField w = 2 →
    decodeWord w = some (.subImmediate (fieldA w).toNat (w.extractLsb' 10 22).toInt)) ∧
  RegImmResult .subImmediate (fun a imm => a - imm) ∧ (∀ a imm, TakesTicks (.subImmediate a imm) 4)

/-- R151, `jumpToReg`: encoding, effect (any target, not checked), frame, ticks, example. -/
def Obligations.JumpToRegInstruction : Prop :=
  (∀ w : Word, opcodeField w = 7 → decodeWord w = some (.jumpToReg (fieldA w).toNat)) ∧
  (∀ (s : State) (a : Nat), a < 32 → ∃ t, exec (.jumpToReg a) s = .next t ∧ t.pc = s.reg a ∧ OnlyPc s t) ∧
  (∀ a, TakesTicks (.jumpToReg a) 3) ∧ decodeWord 0x00000067 = some (.jumpToReg 3)

/-- `branchIfZero` (42_control_transfer.md): the flags are those of the last arithmetic instruction and fatal before
the first, the spec's decisions D1, D2 (log 7). -/
def Obligations.BranchIfZeroInstruction : Prop :=
  (∀ w : Word, opcodeField w = 9 → decodeWord w = some (.branchIfZero (fieldA w).toNat)) ∧
  BranchResult .branchIfZero State.zf ∧ ∀ a, TakesTicks (.branchIfZero a) 3

/-- `branchIfPositive` (42_control_transfer.md), the spec's decisions D1, D2 (log 7). -/
def Obligations.BranchIfPositiveInstruction : Prop :=
  (∀ w : Word, opcodeField w = 10 → decodeWord w = some (.branchIfPositive (fieldA w).toNat)) ∧
  BranchResult .branchIfPositive State.pf ∧ ∀ a, TakesTicks (.branchIfPositive a) 3

/-- `load` (43_load_store.md): at a legal address the word there goes to the destination (discarded for register 0)
and nothing else a program sees changes but `pc`; at an illegal one it is fatal, register 0 or not. The fields are the
spec's decisions D3, D22 (log 8). -/
def Obligations.LoadInstruction : Prop :=
  (∀ w : Word, opcodeField w = 14 → decodeWord w = some (.load (fieldDest w).toNat (fieldA w).toNat)) ∧
  (∀ (s : State) (d a : Nat), d < 32 → a < 32 →
    (s.Legal (s.reg a) →
      ∃ w t, WordAt s (s.reg a) w ∧ exec (.load d a) s = .next t ∧ (d ≠ 0 → t.reg d = w) ∧ t.reg 0 = 0 ∧
        t.memOut = w ∧ (t.lastSelVideo = true ↔ s.vbase ≤ (s.reg a).toNat) ∧ t.pc = s.pc + 4 ∧ t.cuState = .fetch ∧
        SameRegsExcept d s t ∧ SameFlags s t ∧ SameMemory s t ∧ SameRun s t) ∧
    (¬ s.Legal (s.reg a) → exec (.load d a) s = .fault (.addrRange (s.reg a)))) ∧
  ∀ d a, TakesTicks (.load d a) 4

/-- `store` (43_load_store.md): at a legal address the word of the data register is put there, every other byte and
register is as before; at an illegal one it is fatal. The fields are the spec's decisions D3, D22 (log 8). -/
def Obligations.StoreInstruction : Prop :=
  (∀ w : Word, opcodeField w = 15 → decodeWord w = some (.store (fieldA w).toNat (fieldB w).toNat)) ∧
  (∀ (s : State) (a b : Nat), a < 32 → b < 32 → s.MemoryOk →
    (s.Legal (s.reg a) →
      ∃ t, exec (.store a b) s = .next t ∧ WordAt t (s.reg a) (s.reg b) ∧ SameMemoryExcept (s.reg a) s t ∧
        t.pc = s.pc + 4 ∧ t.cuState = .fetch ∧ SameRegs s t ∧ SameFlags s t ∧ SameMemOut s t ∧ SameRun s t) ∧
    (¬ s.Legal (s.reg a) → exec (.store a b) s = .fault (.addrRange (s.reg a)))) ∧
  ∀ a b, TakesTicks (.store a b) 3

/-- R170, `nop`: encoding (any upper bits, canonical word 0), effect, frame, ticks. -/
def Obligations.NopInstruction : Prop :=
  (∀ w : Word, opcodeField w = 0 → decodeWord w = some .nop) ∧ encode .nop = 0x00000000#32 ∧
  (∀ s : State, ∃ t, exec .nop s = .next t ∧ t.pc = s.pc + 4 ∧ OnlyPc s t) ∧ TakesTicks .nop 3

/-- R171, `displayFlush`: encoding; one Render event with all 4096 bytes of the video buffer; `pc + 4`; no register,
flag or memory effect; ticks; the event comes in the Execute tick. -/
def Obligations.DisplayFlushInstruction : Prop :=
  (∀ w : Word, opcodeField w = 16 → decodeWord w = some .displayFlush) ∧ encode .displayFlush = 0x00000010#32 ∧
  (∀ s : State, ∃ t snap, exec .displayFlush s = .next t ∧ t.trace = s.trace ++ [.render snap] ∧
    (∀ o, o < 4096 → s.byteAt (s.vbase + o) = some (Memory.read snap o)) ∧ t.pc = s.pc + 4 ∧ t.cuState = .fetch ∧
    SameRegs s t ∧ SameFlags s t ∧ SameMemory s t ∧ SameMemOut s t ∧ t.halted = s.halted ∧ SameCondition s t) ∧
  TakesTicks .displayFlush 3 ∧
  ∀ s : State, s.Ready → s.Fetches .displayFlush →
    (tickN 2 s).trace = s.trace ∧ (tickN 3 s).trace = s.trace ++ [.render s.vid]

/-- `halt` (44_system.md): the halted flag, Fetch, and no register, flag, memory or trace effect; the third tick is the
first to answer true (D14, log 19). What `pc` holds after it is left unsaid (D8, log 11). -/
def Obligations.HaltInstruction : Prop :=
  (∀ w : Word, opcodeField w = 17 → decodeWord w = some .halt) ∧ encode .halt = 0x00000011#32 ∧
  (∀ s : State, ∃ t, exec .halt s = .next t ∧ t.halted = true ∧ t.cuState = .fetch ∧ SameRegs s t ∧ SameFlags s t ∧
    SameMemory s t ∧ SameMemOut s t ∧ t.trace = s.trace ∧ SameCondition s t) ∧
  TakesTicks .halt 3 ∧
  ∀ s : State, s.Ready → s.Fetches .halt →
    (tick s).2 = .returned false ∧ (tick (tickN 1 s)).2 = .returned false ∧
    ∀ k, 2 ≤ k → (tick (tickN k s)).2 = .returned true

/-- What an instruction leaves in every scratch register and latch, which no later instruction reads (10_state.md
section 6, 40_control_unit.md section 2). The latches are the spec's decision D20 (log 6), the second read port's index
0 is D27 (log 17); the operand fields are D3, D22 (log 8), D4, D23 (log 9), D24 (log 12). -/
def Obligations.ScratchLatchesAfterAnInstruction : Prop :=
  ∀ (s t : State) (i : Instr), i.WellFormed → exec i s = .next t →
    t.opLatch = i.opcode.code ∧ t.nextPc = s.pc + 4 ∧ t.destReg = destAfter s i ∧ t.imm = immAfter s i ∧
    t.rfOut1 = read1After s i ∧ t.rfOut2 = read2After s i ∧ t.aluResult = resultAfter s i ∧ MemOutAfter s t i

/-- Which fatal error an instruction can raise, and on what (60_exceptions.md section 2; D1, D2, log 7): a branch with
no flags, a load or store at an illegal address, nothing else; and no instruction is refused. -/
def Obligations.InstructionsFaultOnlyAsTabulated : Prop :=
  ∀ (s : State) (i : Instr), i.WellFormed →
    (∀ f, exec i s = .fault f →
      (s.flagsValid = false ∧ f = .undefinedSignal .flags ∧ ∃ a, i = .branchIfZero a ∨ i = .branchIfPositive a) ∨
      (∃ a, ¬ s.Legal (s.reg a) ∧ f = .addrRange (s.reg a) ∧ ((∃ d, i = .load d a) ∨ ∃ b, i = .store a b))) ∧
    ∀ q, exec i s ≠ .refused q

/-! ## The tick machine -/

/-- The Fetch tick (40_control_unit.md section 2): the word at `pc` and the selection are latched, the five scratch
registers reset, and nothing else changes; an illegal `pc` is fatal and leaves all but the recorded error. Which
addresses are illegal rests on the spec's decisions D5, D16, D28 (log 10), the value 0 of the reset scratch registers on
D20 (log 6), what the fatal tick leaves on D15 (log 14). -/
def Obligations.FetchTick : Prop :=
  ∀ s : State, s.Ready →
    (s.Legal s.pc → ∃ w, WordAt s s.pc w ∧
      tick s = ({ s with
        memOut := w, lastSelVideo := decide (s.vbase ≤ s.pc.toNat), nextPc := 0, destReg := 0, imm := 0,
        aluResult := 0, opLatch := 0, cuState := .decode }, .returned false)) ∧
    (¬ s.Legal s.pc → tick s = ({ s with fault := some (.addrRange s.pc) }, .fatal (.addrRange s.pc)))

/-- The Decode tick (40_control_unit.md section 2): the opcode, `pc + 4`, and the registers and immediate of the class
are latched, and nothing a program sees changes. The fields of load and store are the spec's decision D3 (log 8), the
destination of the immediate forms its D4 (log 9). -/
def Obligations.DecodeTick : Prop :=
  ∀ (s t : State) (h : Bool), s.cuState = .decode → s.halted = false → s.fault = none → tick s = (t, .returned h) →
    SameArchitecture s t ∧ SameMemOut s t ∧ t.fault = none ∧ t.cuState = .execute ∧ t.nextPc = s.pc + 4 ∧
    t.opLatch = opcodeField s.memOut ∧ t.aluResult = s.aluResult ∧
    (opcodeField s.memOut ∉ [0, 16, 17] → t.rfOut1 = s.reg (fieldA s.memOut).toNat) ∧
    (opcodeField s.memOut ∈ [3, 4, 5, 6, 15] → t.rfOut2 = s.reg (fieldB s.memOut).toNat) ∧
    (opcodeField s.memOut ∈ [3, 4, 5, 6, 14] → t.destReg = fieldDest s.memOut) ∧
    (opcodeField s.memOut ∈ [1, 2] → t.destReg = fieldA s.memOut ∧ t.imm = s.memOut.sshiftRight 10)

/-- R103: the transition function, and the three or four ticks that follow from it. -/
def Obligations.StageTransitions : Prop :=
  (∀ (s t : State) (h : Bool), s.halted = false → s.fault = none → tick s = (t, .returned h) →
    (s.cuState = .fetch → t.cuState = .decode) ∧ (s.cuState = .decode → t.cuState = .execute) ∧
    (s.cuState = .execute →
      (s.opLatch ∈ [1, 2, 3, 4, 5, 6, 14] ∧ t.cuState = .write) ∨
      (s.opLatch ∈ [0, 7, 9, 10, 15, 16, 17] ∧ t.cuState = .fetch)) ∧
    (s.cuState = .write → t.cuState = .fetch)) ∧
  ∀ i : Instr, TakesTicks i (if i.opcode.code ∈ [1, 2, 3, 4, 5, 6, 14] then 4 else 3)

/-- R107: the Write stage commits the ALU result or the loaded word to the latched register and returns to Fetch; any
other opcode is fatal there and the transitions never lead there with one; no other stage writes the register file. -/
def Obligations.WriteStage : Prop :=
  (∀ s : State, s.cuState = .write → s.halted = false → s.fault = none →
    (s.opLatch ∈ arithmetic → ∃ t, tick s = (t, .returned false) ∧ t.cuState = .fetch ∧
      (s.destReg ≠ 0 → t.reg s.destReg.toNat = s.aluResult) ∧ SameRegsExcept s.destReg.toNat s t ∧ t.reg 0 = 0) ∧
    (s.opLatch = 14 → ∃ t, tick s = (t, .returned false) ∧ t.cuState = .fetch ∧
      (s.destReg ≠ 0 → t.reg s.destReg.toNat = s.memOut) ∧ SameRegsExcept s.destReg.toNat s t ∧ t.reg 0 = 0) ∧
    (s.opLatch ∉ arithmetic → s.opLatch ≠ 14 → (tick s).2 = .fatal (.writeNoWriteback s.opLatch))) ∧
  (∀ s : State, s.cuState ≠ .write → (tick s).1.cuState = .write →
    (tick s).1.opLatch ∈ arithmetic ∨ (tick s).1.opLatch = 14) ∧
  ∀ s : State, s.cuState ≠ .write → SameRegs s (tick s).1

/-- Which tick changes what (10_state.md sections 2 to 4, 20_memory.md section 6; the spec's decisions D7, D25):
flags only the Execute tick of an arithmetic opcode, memory only that of store, the trace only that of displayFlush,
`pc` only an Execute tick, the capacity none. -/
def Obligations.WhichTickChangesWhat : Prop :=
  ∀ s : State,
    (¬ (s.cuState = .execute ∧ s.opLatch ∈ arithmetic) → SameFlags s (tick s).1) ∧
    (¬ (s.cuState = .execute ∧ s.opLatch = 15) → SameMemory s (tick s).1) ∧
    (¬ (s.cuState = .execute ∧ s.opLatch = 16) → (tick s).1.trace = s.trace) ∧
    (s.cuState ≠ .execute → (tick s).1.pc = s.pc) ∧
    (tick s).1.mainSize = s.mainSize

/-- A tick of a halted machine changes nothing and answers true, for ever (40_control_unit.md section 2). That a step of
one does nothing either is the model's reading (log 21); that the answer of every tick is the halted flag after its
commit, unless the tick is fatal, is the spec's decision D14 (log 19). -/
def Obligations.HaltedTicksDoNothing : Prop :=
  (∀ s : State, s.halted = true → s.fault = none →
    step s = .next s ∧ ∀ k, tickN k s = s ∧ tick (tickN k s) = (s, .returned true)) ∧
  ∀ s : State, (tick s).2 = .returned (tick s).1.halted ∨ ∃ f, (tick s).2 = .fatal f

/-- The halted flag is false at first, only the Execute tick of halt drives it true, nothing drives it false, and once
it is true every tick is a no-op that reports it (10_state.md section 5). That the tick which sets it answers true
itself is the spec's decision D14 (log 19). -/
def Obligations.HaltedFlagIsSetOnlyByHalt : Prop :=
  State.reset.halted = false ∧
  (∀ s : State, s.halted = false → (tick s).1.halted = true →
    s.cuState = .execute ∧ s.opLatch = 17 ∧ (tick s).2 = .returned true) ∧
  (∀ (s : State) (k : Nat), s.halted = true → (tickN k s).halted = true) ∧
  ∀ (s : State) (k : Nat), s.halted = true → s.fault = none → tick (tickN k s) = (s, .returned true)

/-- A fatal tick commits nothing and records the error; every later tick changes nothing and reports it again; the
debug port still shows memory as it was (60_exceptions.md section 1; the spec's decision D15, log 14). -/
def Obligations.FatalTicksCommitNothing : Prop :=
  ∀ (s t : State) (f : Fault), s.fault = none → tick s = (t, .fatal f) →
    t = { s with fault := some f } ∧ s.halted = false ∧
    (∀ k, tickN k t = t ∧ tick (tickN k t) = (t, .fatal f)) ∧ step t = .fault f ∧
    ∀ a, debugRead t a = debugRead s a

/-- The fatal errors a machine that meets the invariant can raise, by stage (60_exceptions.md section 2): the table of
that section is complete. -/
def Obligations.ReachableFatalErrors : Prop :=
  ∀ (s : State) (f : Fault), s.Inv → s.fault = none → (tick s).2 = .fatal f →
    (s.cuState = .fetch ∧ f = .addrRange s.pc) ∨
    (s.cuState = .decode ∧ f = .badOpcode (opcodeField s.memOut) ∧ opcodeField s.memOut ∈ unassigned) ∨
    (s.cuState = .execute ∧ s.opLatch ∈ [9, 10] ∧ s.flagsValid = false ∧ f = .undefinedSignal .flags) ∨
    (s.cuState = .execute ∧ s.opLatch ∈ [14, 15] ∧ f = .addrRange s.rfOut1)

/-- A run ends in one way only: no run both halts and faults (70_reset_and_hazards.md section 4). -/
def Obligations.RunEndsInOneWay : Prop :=
  ∀ (s : State) (j k : Nat) (f : Fault), s.HaltOk → ¬ (HaltedAfter j s ∧ FaultedAfter k f s)

/-! ## One step -/

/-- When the four bytes at `pc` decode to an instruction, a step of a running machine is `exec` of it at the state the
Fetch tick leaves: the word latched, the scratch registers reset, the control unit at Decode (log 1). -/
def Obligations.StepRunsTheDecodedInstruction : Prop :=
  ∀ (s : State) (i : Instr) (b0 b1 b2 b3 : Byte), s.Ready → s.Legal s.pc →
    s.byteAt s.pc.toNat = some b0 → s.byteAt (s.pc.toNat + 1) = some b1 →
    s.byteAt (s.pc.toNat + 2) = some b2 → s.byteAt (s.pc.toNat + 3) = some b3 →
    decode [b0, b1, b2, b3] = .ok (i, []) →
    step s = exec i { s with
      memOut := wordOfBytes b0 b1 b2 b3, lastSelVideo := decide (s.vbase ≤ s.pc.toNat), nextPc := 0, destReg := 0,
      imm := 0, aluResult := 0, opLatch := 0, cuState := .decode }

/-- A step of a running machine stops on an illegal `pc` and on an unassigned opcode, and goes on to an instruction
otherwise; a faulted machine stays stopped on its fault (60_exceptions.md section 2; D15, D26, D28). -/
def Obligations.StepStopsOnABadFetch : Prop :=
  (∀ (s : State) (f : Fault), s.fault = some f → step s = .fault f) ∧
  ∀ s : State, s.Ready →
    (¬ s.Legal s.pc → step s = .fault (.addrRange s.pc)) ∧
    ∀ w, s.memRead s.pc = .ok w →
      (opcodeField w ∈ unassigned → step s = .fault (.badOpcode (opcodeField w))) ∧
      (opcodeField w ∉ unassigned → ∃ i, decodeWord w = some i ∧ step s = exec i (s.afterFetch w))

/-- The model's loading of one instruction (log 18) puts it where the very next step fetches it, and changes no other
byte. -/
def Obligations.WithFetchWordRunsTheWord : Prop :=
  ∀ (s : State) (w : Word) (i : Instr), s.MemoryOk → s.Legal s.pc → decodeWord w = some i →
    (s.withFetchWord 32 w.toNat).Ready ∧ WordAt (s.withFetchWord 32 w.toNat) s.pc w ∧
    SameMemoryExcept s.pc s (s.withFetchWord 32 w.toNat) ∧
    step (s.withFetchWord 32 w.toNat) = exec i ((s.withFetchWord 32 w.toNat).afterFetch w)

/-- The instruction-level view is the tick-level one (40_control_unit.md section 5): from a machine about to fetch, a
step that completes is the ticks of its instruction, none of them back at Fetch, halted or fatal before the last; a
step that faults is one to three ticks, of which the last is fatal with that error; a step is never refused. -/
def Obligations.StepIsItsTicks : Prop :=
  ∀ s : State, s.Ready →
    (∀ t, step s = .next t → ∃ i, s.Fetches i ∧ tickN (if i.opcode.writesBack then 4 else 3) s = t ∧
      t.cuState = .fetch ∧ t.fault = none ∧
      ∀ k, 0 < k → k < (if i.opcode.writesBack then 4 else 3) →
        (tickN k s).cuState ≠ .fetch ∧ (tickN k s).halted = false ∧ (tickN k s).fault = none) ∧
    (∀ f, step s = .fault f → ∃ k, k < 3 ∧ (∀ j, j ≤ k → (tickN j s).fault = none) ∧
      tick (tickN k s) = ((tickN k s).raiseFatal f, .fatal f)) ∧
    ∀ q, step s ≠ .refused q

/-- From any stage, a step that completes is at most four ticks and leaves the control unit at Fetch (unless the
machine was already halted, when it is none) (log 1). -/
def Obligations.StepFinishesTheInstructionInFlight : Prop :=
  ∀ s t : State, step s = .next t →
    ∃ k, k ≤ 4 ∧ tickN k s = t ∧ (s.halted = false → 0 < k ∧ t.cuState = .fetch)

/-- Fatal errors are precise (60_exceptions.md section 3): when the instruction about to be fetched faults, the ticks up
to and including the fatal one change nothing a program or the interface sees. -/
def Obligations.FaultsArePrecise : Prop :=
  ∀ (s : State) (f : Fault), s.Ready → step s = .fault f →
    ∃ k, k < 3 ∧ FaultedAfter (k + 1) f s ∧ SameArchitecture s (tickN (k + 1) s)

/-- A stored word that stands where the next fetch reads is the instruction fetched (20_memory.md section 8). -/
def Obligations.StoreIsSeenByTheNextFetch : Prop :=
  ∀ (s t : State) (a b : Nat) (i : Instr), s.MemoryOk → a < 32 → b < 32 → exec (.store a b) s = .next t →
    t.pc = s.reg a → decodeWord (s.reg b) = some i → t.Fetches i

/-! ## Invariant, reset, construction, rendering -/

/-- Every step keeps the invariant. -/
def Obligations.StepKeepsTheInvariant : Prop := ∀ s t : State, s.Inv → step s = .next t → t.Inv

/-- Every tick keeps the invariant, the fatal ones too. -/
def Obligations.TickKeepsTheInvariant : Prop := ∀ s : State, s.Inv → (tick s).1.Inv

/-- The reset state meets the invariant. -/
def Obligations.ResetMeetsTheInvariant : Prop := State.reset.Inv

/-- A constructed machine meets the invariant. -/
def Obligations.ConstructionMeetsTheInvariant : Prop :=
  ∀ (n : Nat) (image : List Word) (memInit : Nat → Byte) (s : State),
    State.construct n image memInit = .ok s → s.Inv

/-- The reset state (10_state.md section 7): the spec's values, among them its decisions D6, D9 (`pc`, Fetch, log 4),
D2 (no flags, log 7) and D20 (scratch registers and latches, log 6); the capacity 8192 and the zero bytes are the model's
choices (log 2, log 3). -/
def Obligations.ResetState : Prop :=
  (∀ r, State.reset.reg r = 0) ∧ State.reset.pc = 0 ∧ State.reset.Ready ∧ State.reset.flagsValid = false ∧
  State.reset.nextPc = 0 ∧ State.reset.destReg = 0 ∧ State.reset.imm = 0 ∧ State.reset.aluResult = 0 ∧
  State.reset.opLatch = 0 ∧ State.reset.memOut = 0 ∧ State.reset.lastSelVideo = false ∧ State.reset.rfOut1 = 0 ∧
  State.reset.rfOut2 = 0 ∧ State.reset.trace = [] ∧ State.reset.capacity = 8192 ∧
  ∀ a, a < 8192 → State.reset.byteAt a = some 0

/-- Construction (70_reset_and_hazards.md section 2): word `i` of the image at `4 * i`, `memInit` everywhere else;
registers, scratch registers and latches 0, `pc` 0, Fetch, not halted, no flags, no events, no fault. A capacity out of
range and an image longer than main memory are refused. Rests on the spec's decisions D6, D9 (`pc`, Fetch, log 4), D2 (no
flags, log 7), D20 (scratch registers and latches, log 6), D10, D12 (capacity, image, log 20). -/
def Obligations.ConstructionPlacesTheImage : Prop :=
  ∀ (n : Nat) (image : List Word) (memInit : Nat → Byte),
    (4100 ≤ n → n ≤ 2 ^ 31 → n % 4 = 0 → 4 * image.length ≤ n - 4096 →
      ∃ s, State.construct n image memInit = .ok s ∧ s.capacity = n ∧ s.Ready ∧ s.pc = 0 ∧ s.flagsValid = false ∧
        (∀ r, s.reg r = 0) ∧ s.nextPc = 0 ∧ s.destReg = 0 ∧ s.imm = 0 ∧ s.aluResult = 0 ∧ s.opLatch = 0 ∧
        s.memOut = 0 ∧ s.lastSelVideo = false ∧ s.rfOut1 = 0 ∧ s.rfOut2 = 0 ∧ s.trace = [] ∧
        (∀ (i : Nat) (h : i < image.length), s.memRead (BitVec.ofNat 32 (4 * i)) = .ok image[i]) ∧
        ∀ a, 4 * image.length ≤ a → a < n → s.byteAt a = some (memInit a)) ∧
    (¬ (4100 ≤ n ∧ n ≤ 2 ^ 31 ∧ n % 4 = 0) →
      State.construct n image memInit = .error (.capacityOutOfRange n)) ∧
    (4100 ≤ n → n ≤ 2 ^ 31 → n % 4 = 0 → n - 4096 < 4 * image.length →
      State.construct n image memInit = .error (.imageTooLong image.length))

/-- The model's reset state is the construction of 8192 bytes with the empty image over zero bytes (log 2, log 3). -/
def Obligations.ResetIsAConstruction : Prop :=
  State.construct 8192 [] (fun _ => 0) = .ok State.reset

/-- The text of a Render event (20_memory.md section 9; stride 60 is the spec's decision D13, log 15): 64 rows of 60
bytes, row `r`, column `c` showing byte `60 * r + c` of the snapshot. -/
def Obligations.RenderedTextGeometry : Prop :=
  ∀ snap : Memory, (Event.rows (.render snap)).length = 64 ∧ (∀ row ∈ Event.rows (.render snap), row.length = 60) ∧
    ∀ r c, r < 64 → c < 60 →
      ((Event.rows (.render snap))[r]?).bind (fun row => row[c]?) = some (Memory.read snap (60 * r + c))
end

