-- ==== Sys2Proof/Laws/State.lean ====
section
/-! SUPPORT. One lemma per field of State per named update, so that no proof unfolds a record update. -/

namespace Sys2Proof.Machine

variable (s : State)

/-! ## `State.setMain` -/

@[simp] theorem State.setMain_x (m : Memory) : (s.setMain m).x = s.x := rfl
@[simp] theorem State.setMain_pc (m : Memory) : (s.setMain m).pc = s.pc := rfl
@[simp] theorem State.setMain_zf (m : Memory) : (s.setMain m).zf = s.zf := rfl
@[simp] theorem State.setMain_pf (m : Memory) : (s.setMain m).pf = s.pf := rfl
@[simp] theorem State.setMain_flagsValid (m : Memory) : (s.setMain m).flagsValid = s.flagsValid := rfl
@[simp] theorem State.setMain_cuState (m : Memory) : (s.setMain m).cuState = s.cuState := rfl
@[simp] theorem State.setMain_halted (m : Memory) : (s.setMain m).halted = s.halted := rfl
@[simp] theorem State.setMain_nextPc (m : Memory) : (s.setMain m).nextPc = s.nextPc := rfl
@[simp] theorem State.setMain_destReg (m : Memory) : (s.setMain m).destReg = s.destReg := rfl
@[simp] theorem State.setMain_imm (m : Memory) : (s.setMain m).imm = s.imm := rfl
@[simp] theorem State.setMain_aluResult (m : Memory) : (s.setMain m).aluResult = s.aluResult := rfl
@[simp] theorem State.setMain_opLatch (m : Memory) : (s.setMain m).opLatch = s.opLatch := rfl
@[simp] theorem State.setMain_memOut (m : Memory) : (s.setMain m).memOut = s.memOut := rfl
@[simp] theorem State.setMain_lastSelVideo (m : Memory) : (s.setMain m).lastSelVideo = s.lastSelVideo := rfl
@[simp] theorem State.setMain_rfOut1 (m : Memory) : (s.setMain m).rfOut1 = s.rfOut1 := rfl
@[simp] theorem State.setMain_rfOut2 (m : Memory) : (s.setMain m).rfOut2 = s.rfOut2 := rfl
@[simp] theorem State.setMain_mainSize (m : Memory) : (s.setMain m).mainSize = s.mainSize := rfl
@[simp] theorem State.setMain_main (m : Memory) : (s.setMain m).main = m := rfl
@[simp] theorem State.setMain_vid (m : Memory) : (s.setMain m).vid = s.vid := rfl
@[simp] theorem State.setMain_trace (m : Memory) : (s.setMain m).trace = s.trace := rfl
@[simp] theorem State.setMain_fault (m : Memory) : (s.setMain m).fault = s.fault := rfl

/-! ## `State.setVid` -/

@[simp] theorem State.setVid_x (m : Memory) : (s.setVid m).x = s.x := rfl
@[simp] theorem State.setVid_pc (m : Memory) : (s.setVid m).pc = s.pc := rfl
@[simp] theorem State.setVid_zf (m : Memory) : (s.setVid m).zf = s.zf := rfl
@[simp] theorem State.setVid_pf (m : Memory) : (s.setVid m).pf = s.pf := rfl
@[simp] theorem State.setVid_flagsValid (m : Memory) : (s.setVid m).flagsValid = s.flagsValid := rfl
@[simp] theorem State.setVid_cuState (m : Memory) : (s.setVid m).cuState = s.cuState := rfl
@[simp] theorem State.setVid_halted (m : Memory) : (s.setVid m).halted = s.halted := rfl
@[simp] theorem State.setVid_nextPc (m : Memory) : (s.setVid m).nextPc = s.nextPc := rfl
@[simp] theorem State.setVid_destReg (m : Memory) : (s.setVid m).destReg = s.destReg := rfl
@[simp] theorem State.setVid_imm (m : Memory) : (s.setVid m).imm = s.imm := rfl
@[simp] theorem State.setVid_aluResult (m : Memory) : (s.setVid m).aluResult = s.aluResult := rfl
@[simp] theorem State.setVid_opLatch (m : Memory) : (s.setVid m).opLatch = s.opLatch := rfl
@[simp] theorem State.setVid_memOut (m : Memory) : (s.setVid m).memOut = s.memOut := rfl
@[simp] theorem State.setVid_lastSelVideo (m : Memory) : (s.setVid m).lastSelVideo = s.lastSelVideo := rfl
@[simp] theorem State.setVid_rfOut1 (m : Memory) : (s.setVid m).rfOut1 = s.rfOut1 := rfl
@[simp] theorem State.setVid_rfOut2 (m : Memory) : (s.setVid m).rfOut2 = s.rfOut2 := rfl
@[simp] theorem State.setVid_mainSize (m : Memory) : (s.setVid m).mainSize = s.mainSize := rfl
@[simp] theorem State.setVid_main (m : Memory) : (s.setVid m).main = s.main := rfl
@[simp] theorem State.setVid_vid (m : Memory) : (s.setVid m).vid = m := rfl
@[simp] theorem State.setVid_trace (m : Memory) : (s.setVid m).trace = s.trace := rfl
@[simp] theorem State.setVid_fault (m : Memory) : (s.setVid m).fault = s.fault := rfl

/-! ## `State.setX` -/

@[simp] theorem State.setX_x (x : RegFile) : (s.setX x).x = x := rfl
@[simp] theorem State.setX_pc (x : RegFile) : (s.setX x).pc = s.pc := rfl
@[simp] theorem State.setX_zf (x : RegFile) : (s.setX x).zf = s.zf := rfl
@[simp] theorem State.setX_pf (x : RegFile) : (s.setX x).pf = s.pf := rfl
@[simp] theorem State.setX_flagsValid (x : RegFile) : (s.setX x).flagsValid = s.flagsValid := rfl
@[simp] theorem State.setX_cuState (x : RegFile) : (s.setX x).cuState = s.cuState := rfl
@[simp] theorem State.setX_halted (x : RegFile) : (s.setX x).halted = s.halted := rfl
@[simp] theorem State.setX_nextPc (x : RegFile) : (s.setX x).nextPc = s.nextPc := rfl
@[simp] theorem State.setX_destReg (x : RegFile) : (s.setX x).destReg = s.destReg := rfl
@[simp] theorem State.setX_imm (x : RegFile) : (s.setX x).imm = s.imm := rfl
@[simp] theorem State.setX_aluResult (x : RegFile) : (s.setX x).aluResult = s.aluResult := rfl
@[simp] theorem State.setX_opLatch (x : RegFile) : (s.setX x).opLatch = s.opLatch := rfl
@[simp] theorem State.setX_memOut (x : RegFile) : (s.setX x).memOut = s.memOut := rfl
@[simp] theorem State.setX_lastSelVideo (x : RegFile) : (s.setX x).lastSelVideo = s.lastSelVideo := rfl
@[simp] theorem State.setX_rfOut1 (x : RegFile) : (s.setX x).rfOut1 = s.rfOut1 := rfl
@[simp] theorem State.setX_rfOut2 (x : RegFile) : (s.setX x).rfOut2 = s.rfOut2 := rfl
@[simp] theorem State.setX_mainSize (x : RegFile) : (s.setX x).mainSize = s.mainSize := rfl
@[simp] theorem State.setX_main (x : RegFile) : (s.setX x).main = s.main := rfl
@[simp] theorem State.setX_vid (x : RegFile) : (s.setX x).vid = s.vid := rfl
@[simp] theorem State.setX_trace (x : RegFile) : (s.setX x).trace = s.trace := rfl
@[simp] theorem State.setX_fault (x : RegFile) : (s.setX x).fault = s.fault := rfl

/-! ## `State.emitRender` -/

@[simp] theorem State.emitRender_x : s.emitRender.x = s.x := rfl
@[simp] theorem State.emitRender_pc : s.emitRender.pc = s.pc := rfl
@[simp] theorem State.emitRender_zf : s.emitRender.zf = s.zf := rfl
@[simp] theorem State.emitRender_pf : s.emitRender.pf = s.pf := rfl
@[simp] theorem State.emitRender_flagsValid : s.emitRender.flagsValid = s.flagsValid := rfl
@[simp] theorem State.emitRender_cuState : s.emitRender.cuState = s.cuState := rfl
@[simp] theorem State.emitRender_halted : s.emitRender.halted = s.halted := rfl
@[simp] theorem State.emitRender_nextPc : s.emitRender.nextPc = s.nextPc := rfl
@[simp] theorem State.emitRender_destReg : s.emitRender.destReg = s.destReg := rfl
@[simp] theorem State.emitRender_imm : s.emitRender.imm = s.imm := rfl
@[simp] theorem State.emitRender_aluResult : s.emitRender.aluResult = s.aluResult := rfl
@[simp] theorem State.emitRender_opLatch : s.emitRender.opLatch = s.opLatch := rfl
@[simp] theorem State.emitRender_memOut : s.emitRender.memOut = s.memOut := rfl
@[simp] theorem State.emitRender_lastSelVideo : s.emitRender.lastSelVideo = s.lastSelVideo := rfl
@[simp] theorem State.emitRender_rfOut1 : s.emitRender.rfOut1 = s.rfOut1 := rfl
@[simp] theorem State.emitRender_rfOut2 : s.emitRender.rfOut2 = s.rfOut2 := rfl
@[simp] theorem State.emitRender_mainSize : s.emitRender.mainSize = s.mainSize := rfl
@[simp] theorem State.emitRender_main : s.emitRender.main = s.main := rfl
@[simp] theorem State.emitRender_vid : s.emitRender.vid = s.vid := rfl
@[simp] theorem State.emitRender_trace : s.emitRender.trace = s.trace ++ [.render s.vid] := rfl
@[simp] theorem State.emitRender_fault : s.emitRender.fault = s.fault := rfl

/-! ## `State.raiseFatal` -/

@[simp] theorem State.raiseFatal_x (f : Fault) : (s.raiseFatal f).x = s.x := rfl
@[simp] theorem State.raiseFatal_pc (f : Fault) : (s.raiseFatal f).pc = s.pc := rfl
@[simp] theorem State.raiseFatal_zf (f : Fault) : (s.raiseFatal f).zf = s.zf := rfl
@[simp] theorem State.raiseFatal_pf (f : Fault) : (s.raiseFatal f).pf = s.pf := rfl
@[simp] theorem State.raiseFatal_flagsValid (f : Fault) : (s.raiseFatal f).flagsValid = s.flagsValid := rfl
@[simp] theorem State.raiseFatal_cuState (f : Fault) : (s.raiseFatal f).cuState = s.cuState := rfl
@[simp] theorem State.raiseFatal_halted (f : Fault) : (s.raiseFatal f).halted = s.halted := rfl
@[simp] theorem State.raiseFatal_nextPc (f : Fault) : (s.raiseFatal f).nextPc = s.nextPc := rfl
@[simp] theorem State.raiseFatal_destReg (f : Fault) : (s.raiseFatal f).destReg = s.destReg := rfl
@[simp] theorem State.raiseFatal_imm (f : Fault) : (s.raiseFatal f).imm = s.imm := rfl
@[simp] theorem State.raiseFatal_aluResult (f : Fault) : (s.raiseFatal f).aluResult = s.aluResult := rfl
@[simp] theorem State.raiseFatal_opLatch (f : Fault) : (s.raiseFatal f).opLatch = s.opLatch := rfl
@[simp] theorem State.raiseFatal_memOut (f : Fault) : (s.raiseFatal f).memOut = s.memOut := rfl
@[simp] theorem State.raiseFatal_lastSelVideo (f : Fault) : (s.raiseFatal f).lastSelVideo = s.lastSelVideo := rfl
@[simp] theorem State.raiseFatal_rfOut1 (f : Fault) : (s.raiseFatal f).rfOut1 = s.rfOut1 := rfl
@[simp] theorem State.raiseFatal_rfOut2 (f : Fault) : (s.raiseFatal f).rfOut2 = s.rfOut2 := rfl
@[simp] theorem State.raiseFatal_mainSize (f : Fault) : (s.raiseFatal f).mainSize = s.mainSize := rfl
@[simp] theorem State.raiseFatal_main (f : Fault) : (s.raiseFatal f).main = s.main := rfl
@[simp] theorem State.raiseFatal_vid (f : Fault) : (s.raiseFatal f).vid = s.vid := rfl
@[simp] theorem State.raiseFatal_trace (f : Fault) : (s.raiseFatal f).trace = s.trace := rfl
@[simp] theorem State.raiseFatal_fault (f : Fault) : (s.raiseFatal f).fault = some f := rfl

/-! ## `State.latchOpcode` -/

@[simp] theorem State.latchOpcode_x (o : Opcode) : (s.latchOpcode o).x = s.x := rfl
@[simp] theorem State.latchOpcode_pc (o : Opcode) : (s.latchOpcode o).pc = s.pc := rfl
@[simp] theorem State.latchOpcode_zf (o : Opcode) : (s.latchOpcode o).zf = s.zf := rfl
@[simp] theorem State.latchOpcode_pf (o : Opcode) : (s.latchOpcode o).pf = s.pf := rfl
@[simp] theorem State.latchOpcode_flagsValid (o : Opcode) : (s.latchOpcode o).flagsValid = s.flagsValid := rfl
@[simp] theorem State.latchOpcode_cuState (o : Opcode) : (s.latchOpcode o).cuState = .execute := rfl
@[simp] theorem State.latchOpcode_halted (o : Opcode) : (s.latchOpcode o).halted = s.halted := rfl
@[simp] theorem State.latchOpcode_nextPc (o : Opcode) : (s.latchOpcode o).nextPc = s.pc + 4 := rfl
@[simp] theorem State.latchOpcode_destReg (o : Opcode) : (s.latchOpcode o).destReg = s.destReg := rfl
@[simp] theorem State.latchOpcode_imm (o : Opcode) : (s.latchOpcode o).imm = s.imm := rfl
@[simp] theorem State.latchOpcode_aluResult (o : Opcode) : (s.latchOpcode o).aluResult = s.aluResult := rfl
@[simp] theorem State.latchOpcode_opLatch (o : Opcode) : (s.latchOpcode o).opLatch = o.code := rfl
@[simp] theorem State.latchOpcode_memOut (o : Opcode) : (s.latchOpcode o).memOut = s.memOut := rfl
@[simp] theorem State.latchOpcode_lastSelVideo (o : Opcode) : (s.latchOpcode o).lastSelVideo = s.lastSelVideo := rfl
@[simp] theorem State.latchOpcode_rfOut1 (o : Opcode) : (s.latchOpcode o).rfOut1 = s.rfOut1 := rfl
@[simp] theorem State.latchOpcode_rfOut2 (o : Opcode) : (s.latchOpcode o).rfOut2 = s.rfOut2 := rfl
@[simp] theorem State.latchOpcode_mainSize (o : Opcode) : (s.latchOpcode o).mainSize = s.mainSize := rfl
@[simp] theorem State.latchOpcode_main (o : Opcode) : (s.latchOpcode o).main = s.main := rfl
@[simp] theorem State.latchOpcode_vid (o : Opcode) : (s.latchOpcode o).vid = s.vid := rfl
@[simp] theorem State.latchOpcode_trace (o : Opcode) : (s.latchOpcode o).trace = s.trace := rfl
@[simp] theorem State.latchOpcode_fault (o : Opcode) : (s.latchOpcode o).fault = s.fault := rfl

/-! ## `State.afterFetch` -/

@[simp] theorem State.afterFetch_x (w : Word) : (s.afterFetch w).x = s.x := rfl
@[simp] theorem State.afterFetch_pc (w : Word) : (s.afterFetch w).pc = s.pc := rfl
@[simp] theorem State.afterFetch_zf (w : Word) : (s.afterFetch w).zf = s.zf := rfl
@[simp] theorem State.afterFetch_pf (w : Word) : (s.afterFetch w).pf = s.pf := rfl
@[simp] theorem State.afterFetch_flagsValid (w : Word) : (s.afterFetch w).flagsValid = s.flagsValid := rfl
@[simp] theorem State.afterFetch_cuState (w : Word) : (s.afterFetch w).cuState = .decode := rfl
@[simp] theorem State.afterFetch_halted (w : Word) : (s.afterFetch w).halted = s.halted := rfl
@[simp] theorem State.afterFetch_nextPc (w : Word) : (s.afterFetch w).nextPc = 0 := rfl
@[simp] theorem State.afterFetch_destReg (w : Word) : (s.afterFetch w).destReg = 0 := rfl
@[simp] theorem State.afterFetch_imm (w : Word) : (s.afterFetch w).imm = 0 := rfl
@[simp] theorem State.afterFetch_aluResult (w : Word) : (s.afterFetch w).aluResult = 0 := rfl
@[simp] theorem State.afterFetch_opLatch (w : Word) : (s.afterFetch w).opLatch = 0 := rfl
@[simp] theorem State.afterFetch_memOut (w : Word) : (s.afterFetch w).memOut = w := rfl
@[simp] theorem State.afterFetch_lastSelVideo (w : Word) : (s.afterFetch w).lastSelVideo = s.selectsVideo s.pc := rfl
@[simp] theorem State.afterFetch_rfOut1 (w : Word) : (s.afterFetch w).rfOut1 = s.rfOut1 := rfl
@[simp] theorem State.afterFetch_rfOut2 (w : Word) : (s.afterFetch w).rfOut2 = s.rfOut2 := rfl
@[simp] theorem State.afterFetch_mainSize (w : Word) : (s.afterFetch w).mainSize = s.mainSize := rfl
@[simp] theorem State.afterFetch_main (w : Word) : (s.afterFetch w).main = s.main := rfl
@[simp] theorem State.afterFetch_vid (w : Word) : (s.afterFetch w).vid = s.vid := rfl
@[simp] theorem State.afterFetch_trace (w : Word) : (s.afterFetch w).trace = s.trace := rfl
@[simp] theorem State.afterFetch_fault (w : Word) : (s.afterFetch w).fault = s.fault := rfl

/-! ## Views that depend on some fields only -/

/-- Translation depends on the size of MAIN alone. -/
theorem State.locate_congr {s t : State} (h : t.mainSize = s.mainSize) : t.locate = s.locate := by
  funext a; simp [State.locate, State.vbase, h]

/-- A word read depends on the size of MAIN and the two memory instances alone. -/
theorem State.memRead_congr {s t : State} (hc : t.mainSize = s.mainSize) (hm : t.main = s.main) (hv : t.vid = s.vid) :
    t.memRead = s.memRead := by
  funext a
  have h : t.instanceOf = s.instanceOf := by funext r; cases r <;> simp [State.instanceOf, hm, hv]
  simp [State.memRead, State.locate_congr hc, h]

/-- A byte read depends on the size of MAIN and the two memory instances alone. -/
theorem State.byteAt_congr {s t : State} (hc : t.mainSize = s.mainSize) (hm : t.main = s.main) (hv : t.vid = s.vid) :
    t.byteAt = s.byteAt := by
  funext a; simp [State.byteAt, State.vbase, hc, hm, hv]

/-- A register read depends on the register file alone. -/
theorem State.reg_congr {s t : State} (h : t.x = s.x) : t.reg = s.reg := by
  funext i; simp [State.reg, h]

@[simp] theorem settle_ok (t : State) : settle (.ok t) = .next t := rfl
@[simp] theorem settle_error (f : Fault) : settle (.error f) = .fault f := rfl

/-- A settled meaning answers a next state exactly when it ran. -/
theorem settle_eq_next {r : Except Fault State} {t : State} : settle r = .next t ↔ r = .ok t := by
  cases r <;> simp

/-- A settled meaning faults exactly when it was fatal. -/
theorem settle_eq_fault {r : Except Fault State} {f : Fault} : settle r = .fault f ↔ r = .error f := by
  cases r <;> simp

/-- A settled meaning is never a refusal. -/
theorem settle_ne_refused (r : Except Fault State) (q : Refusal) : settle r ≠ .refused q := by
  cases r <;> simp

end Sys2Proof.Machine
end

