-- ==== Sys2Proof/Laws/Memory.lean ====
section
/-! SUPPORT. Memory: reads after writes, and that every operation keeps the canonical form. -/

namespace Sys2Proof.Machine

/-! ## One instance -/

/-- Read after write, and every other byte alone. -/
theorem Memory.read_set (m : Memory) (a c : Nat) (b : Byte) (lo : Nat) (h : Memory.wfFrom lo m = true) :
    Memory.read (Memory.set m a b) c = if c = a then b else Memory.read m c := by
  induction m generalizing lo with
  | nil => simp only [Memory.set]; split <;> simp_all [Memory.read]
  | cons p rest ih =>
    obtain ⟨k, v⟩ := p
    simp only [Memory.wfFrom, Bool.and_eq_true, decide_eq_true_eq] at h
    obtain ⟨⟨-, -⟩, hr⟩ := h
    simp only [Memory.set]
    have absent : ∀ (l : Memory) (n e : Nat), Memory.wfFrom n l = true → e < n →
        Memory.read l e = Memory.unlisted := by
      intro l
      induction l with
      | nil => intros; rfl
      | cons q l il =>
        intro n e hl he
        obtain ⟨j, u⟩ := q
        simp only [Memory.wfFrom, Bool.and_eq_true, decide_eq_true_eq] at hl
        have hne : e ≠ j := by omega
        simpa [Memory.read, hne] using il (j + 1) e hl.2 (by omega)
    by_cases hak : a < k
    · by_cases hb : b = Memory.unlisted
      · simp only [hak, hb, if_true]
        by_cases hc : c = a
        · have hne : c ≠ k := by omega
          simp [hc, Memory.read, show a ≠ k by omega, absent rest (k + 1) a hr (by omega)]
        · simp [hc]
      · simp [hak, hb, Memory.read]
    · by_cases hk : a = k
      · subst hk
        by_cases hb : b = Memory.unlisted
        · simp only [lt_irrefl, if_false, if_true, hb]
          by_cases hc : c = a
          · simp [hc, absent rest (a + 1) a hr (by omega)]
          · simp [hc, Memory.read]
        · by_cases hc : c = a <;> simp [hb, Memory.read, hc]
      · simp only [hak, hk, if_false, Memory.read, ih (k + 1) hr]
        by_cases hck : c = k
        · simp [hck, show k ≠ a by omega]
        · simp [hck]

/-- An offset below every listed one reads as the unlisted byte. -/
theorem Memory.read_of_lt {m : Memory} {lo a : Nat} (h : Memory.wfFrom lo m = true) (ha : a < lo) :
    Memory.read m a = Memory.unlisted := by
  induction m generalizing lo with
  | nil => rfl
  | cons p rest ih =>
    obtain ⟨k, v⟩ := p
    simp only [Memory.wfFrom, Bool.and_eq_true, decide_eq_true_eq] at h
    simpa [Memory.read, show a ≠ k by omega] using ih h.2 (by omega)

/-- A canonical list is canonical from any lower bound. -/
theorem Memory.wfFrom_mono {m : Memory} {lo lo' : Nat} (h : Memory.wfFrom lo m = true) (hl : lo' ≤ lo) :
    Memory.wfFrom lo' m = true := by
  cases m with
  | nil => rfl
  | cons p rest =>
    obtain ⟨k, v⟩ := p
    simp only [Memory.wfFrom, Bool.and_eq_true, decide_eq_true_eq] at h ⊢
    exact ⟨⟨by omega, h.1.2⟩, h.2⟩

/-- Writing a byte keeps the canonical form, from any bound at or below the offset. -/
theorem Memory.wfFrom_set (m : Memory) (lo a : Nat) (b : Byte) (h : Memory.wfFrom lo m = true) (ha : lo ≤ a) :
    Memory.wfFrom lo (Memory.set m a b) = true := by
  induction m generalizing lo with
  | nil => simp only [Memory.set]; split <;> simp_all [Memory.wfFrom]
  | cons p rest ih =>
    obtain ⟨k, v⟩ := p
    have h' := h
    simp only [Memory.wfFrom, Bool.and_eq_true, decide_eq_true_eq] at h'
    obtain ⟨⟨hk, hv⟩, hr⟩ := h'
    simp only [Memory.set]
    split
    · split
      · exact h
      · simp_all [Memory.wfFrom]
    · split
      · split
        · exact Memory.wfFrom_mono hr (by omega)
        · simp_all [Memory.wfFrom]
      · simp only [Memory.wfFrom, Bool.and_eq_true, decide_eq_true_eq]
        exact ⟨⟨hk, hv⟩, ih (k + 1) hr (by omega)⟩

/-- Writing a byte keeps the canonical form. -/
theorem Memory.wf_set {m : Memory} (a : Nat) (b : Byte) (h : Memory.wf m = true) :
    Memory.wf (Memory.set m a b) = true := Memory.wfFrom_set m 0 a b h (Nat.zero_le a)

/-- Writing a byte inside an instance keeps the listed offsets inside it. -/
theorem Memory.below_set {m : Memory} {cap a : Nat} (b : Byte) (h : Memory.below cap m = true) (ha : a < cap) :
    Memory.below cap (Memory.set m a b) = true := by
  have step : ∀ (q : Host.Cell) (l : Memory), Memory.below cap (q :: l) = true ↔ q.1 < cap ∧ Memory.below cap l = true := by
    intro q l; simp [Memory.below]
  induction m with
  | nil => simp only [Memory.set]; split <;> simp [Memory.below, ha]
  | cons p rest ih =>
    obtain ⟨k, v⟩ := p
    have h' := (step _ _).mp h
    simp only [Memory.set]
    split
    · split
      · exact h
      · exact (step _ _).mpr ⟨ha, h⟩
    · split
      · split
        · exact h'.2
        · exact (step _ _).mpr ⟨h'.1, h'.2⟩
      · exact (step _ _).mpr ⟨h'.1, ih h'.2⟩

/-- Two canonical instances that read alike are the same data. -/
theorem Memory.ext_of_read {m m' : Memory} {lo lo' : Nat} (h : Memory.wfFrom lo m = true)
    (h' : Memory.wfFrom lo' m' = true) (hr : ∀ a, Memory.read m a = Memory.read m' a) : m = m' := by
  induction m generalizing lo lo' m' with
  | nil =>
    cases m' with
    | nil => rfl
    | cons p rest =>
      obtain ⟨k, v⟩ := p
      simp only [Memory.wfFrom, Bool.and_eq_true, decide_eq_true_eq] at h'
      have := hr k
      simp [Memory.read] at this
      exact absurd this.symm h'.1.2
  | cons p rest ih =>
    obtain ⟨k, v⟩ := p
    cases m' with
    | nil =>
      simp only [Memory.wfFrom, Bool.and_eq_true, decide_eq_true_eq] at h
      have := hr k
      simp [Memory.read] at this
      exact absurd this h.1.2
    | cons q rest' =>
      obtain ⟨j, u⟩ := q
      simp only [Memory.wfFrom, Bool.and_eq_true, decide_eq_true_eq] at h h'
      obtain ⟨⟨-, hv⟩, hw⟩ := h
      obtain ⟨⟨-, hu⟩, hw'⟩ := h'
      have hkj : k = j := by
        rcases lt_trichotomy k j with hlt | heq | hgt
        · have e := hr k
          simp [Memory.read, show k ≠ j by omega, Memory.read_of_lt hw' (show k < j + 1 by omega)] at e
          exact absurd e hv
        · exact heq
        · have e := hr j
          simp [Memory.read, show j ≠ k by omega, Memory.read_of_lt hw (show j < k + 1 by omega)] at e
          exact absurd e.symm hu
      subst hkj
      have hvu : v = u := by simpa [Memory.read] using hr k
      have hrest : rest = rest' := by
        refine ih hw hw' fun a => ?_
        by_cases ha : a = k
        · subst ha
          rw [Memory.read_of_lt hw (by omega), Memory.read_of_lt hw' (by omega)]
        · simpa [Memory.read, ha] using hr a
      rw [hvu, hrest]

/-- The bytes of a word, by position (20_memory.md R41). -/
theorem wordOfBytes_wordBytes (w : Word) :
    wordOfBytes (w.extractLsb' 24 8) (w.extractLsb' 16 8) (w.extractLsb' 8 8) (w.extractLsb' 0 8) = w := by
  apply BitVec.eq_of_getLsbD_eq
  intro i hi
  simp only [wordOfBytes, BitVec.getLsbD_append, BitVec.getLsbD_extractLsb']
  rcases Nat.lt_or_ge i 8 with h | h
  · simp [h]
  · rcases Nat.lt_or_ge i 16 with h2 | h2
    · simp [show ¬ i < 8 by omega, show i - 8 < 8 by omega, show 8 + (i - 8) = i by omega]
    · rcases Nat.lt_or_ge i 24 with h3 | h3
      · simp [show ¬ i < 8 by omega, show ¬ i - 8 < 8 by omega, show i - 8 - 8 < 8 by omega,
          show 16 + (i - 8 - 8) = i by omega]
      · simp [show ¬ i < 8 by omega, show ¬ i - 8 < 8 by omega, show ¬ i - 8 - 8 < 8 by omega,
          show i - 8 - 8 - 8 < 8 by omega, show 24 + (i - 8 - 8 - 8) = i by omega]

/-- What a word write leaves at each offset. -/
theorem Memory.read_writeWord {m : Memory} (o c : Nat) (w : Word) (h : Memory.wf m = true) :
    Memory.read (Memory.writeWord m o w) c =
      if c = o + 3 then w.extractLsb' 0 8 else if c = o + 2 then w.extractLsb' 8 8
      else if c = o + 1 then w.extractLsb' 16 8 else if c = o then w.extractLsb' 24 8 else Memory.read m c := by
  have h1 := Memory.wf_set o (w.extractLsb' 24 8) h
  have h2 := Memory.wf_set (o + 1) (w.extractLsb' 16 8) h1
  have h3 := Memory.wf_set (o + 2) (w.extractLsb' 8 8) h2
  simp only [Memory.writeWord, wordBytes, Memory.writeBytes]
  rw [Memory.read_set _ _ _ _ 0 h3, Memory.read_set _ _ _ _ 0 h2, Memory.read_set _ _ _ _ 0 h1,
    Memory.read_set _ _ _ _ 0 h]

/-- A word write keeps the canonical form. -/
theorem Memory.wf_writeWord {m : Memory} (o : Nat) (w : Word) (h : Memory.wf m = true) :
    Memory.wf (Memory.writeWord m o w) = true :=
  Memory.wf_set _ _ (Memory.wf_set _ _ (Memory.wf_set _ _ (Memory.wf_set _ _ h)))

/-- A word write inside an instance keeps the listed offsets inside it. -/
theorem Memory.below_writeWord {m : Memory} {cap o : Nat} (w : Word) (h : Memory.below cap m = true)
    (ho : o + 4 ≤ cap) : Memory.below cap (Memory.writeWord m o w) = true :=
  Memory.below_set _ (Memory.below_set _ (Memory.below_set _ (Memory.below_set _ h (by omega)) (by omega))
    (by omega)) (by omega)

/-- A word just written is read back (20_memory.md R51). -/
theorem Memory.readWord_writeWord {m : Memory} (o : Nat) (w : Word) (h : Memory.wf m = true) :
    Memory.readWord (Memory.writeWord m o w) o = w := by
  rw [Memory.readWord, Memory.read_writeWord o _ w h, Memory.read_writeWord o _ w h, Memory.read_writeWord o _ w h,
    Memory.read_writeWord o _ w h]
  simpa using wordOfBytes_wordBytes w

/-- The instance made from contents is canonical, lies inside its capacity, and reads as the contents. -/
theorem Memory.ofContents_spec (cap : Nat) (f : Nat → Byte) :
    Memory.wf (Memory.ofContents cap f) = true ∧ Memory.below cap (Memory.ofContents cap f) = true ∧
      ∀ a, a < cap → Memory.read (Memory.ofContents cap f) a = f a := by
  have key : ∀ (n lo : Nat),
      Memory.wfFrom lo ((List.range' lo n).filterMap fun a => if f a = Memory.unlisted then none else some (a, f a))
        = true ∧
      (∀ hi, lo + n ≤ hi → Memory.below hi
        ((List.range' lo n).filterMap fun a => if f a = Memory.unlisted then none else some (a, f a)) = true) ∧
      ∀ a, lo ≤ a → a < lo + n → Memory.read
        ((List.range' lo n).filterMap fun a => if f a = Memory.unlisted then none else some (a, f a)) a = f a := by
    intro n
    induction n with
    | zero => intro lo; simp [Memory.wfFrom, Memory.below]; omega
    | succ n ih =>
      intro lo
      obtain ⟨hw, hb, hr⟩ := ih (lo + 1)
      rw [List.range'_succ, List.filterMap_cons]
      by_cases hz : f lo = Memory.unlisted
      · simp only [hz, if_true]
        refine ⟨Memory.wfFrom_mono hw (by omega), fun hi hhi => hb hi (by omega), fun a ha ha' => ?_⟩
        by_cases hal : a = lo
        · subst hal; rw [Memory.read_of_lt hw (by omega), hz]
        · exact hr a (by omega) (by omega)
      · simp only [hz, if_false]
        refine ⟨by simp [Memory.wfFrom, hz, hw], fun hi hhi => ?_, fun a ha ha' => ?_⟩
        · have := hb hi (by omega)
          simp only [Memory.below, List.all_cons, Bool.and_eq_true, decide_eq_true_eq] at this ⊢
          exact ⟨by omega, this⟩
        · by_cases hal : a = lo
          · simp [hal, Memory.read]
          · simpa [Memory.read, hal] using hr a (by omega) (by omega)
  obtain ⟨hw, hb, hr⟩ := key cap 0
  rw [← List.range_eq_range'] at hw hb hr
  exact ⟨hw, hb cap (by omega), fun a ha => hr a (by omega) (by omega)⟩

/-! ## The translated memory -/

/-- Everything the translation can answer: a legal address of MAIN, a legal address of VID, or the fatal error. -/
theorem State.locate_cases (s : State) (a : Word) :
    (a.toNat + 4 ≤ s.vbase ∧ s.locate a = .ok (.main, a.toNat)) ∨
    (s.vbase ≤ a.toNat ∧ a.toNat + 4 ≤ s.vbase + 4096 ∧ s.locate a = .ok (.video, a.toNat - s.vbase)) ∨
    (s.locate a = .error (.addrRange a) ∧ ¬ (a.toNat + 4 ≤ s.vbase) ∧
      ¬ (s.vbase ≤ a.toNat ∧ a.toNat + 4 ≤ s.vbase + 4096)) := by
  simp only [State.locate, translate, Memory.check, Config.wordSize, Config.videoSize]
  by_cases h1 : s.vbase + 4096 ≤ a.toNat
  · right; right; simp only [h1, if_true, true_and]; omega
  · by_cases h2 : a.toNat < s.vbase
    · by_cases h3 : a.toNat + 4 ≤ s.vbase
      · left; simp [h1, h2, h3, Except.map]
      · right; right
        refine ⟨by simp [h1, h2, h3, Except.map], h3, by omega⟩
    · by_cases h3 : a.toNat - s.vbase + 4 ≤ 4096
      · right; left
        refine ⟨by omega, by omega, by simp [h1, h2, h3, Except.map]⟩
      · right; right
        refine ⟨by simp [h1, h2, h3, Except.map], by omega, by omega⟩

/-- The only fatal error of a read is the address itself (20_memory.md R47, R50). -/
theorem State.memRead_error {s : State} {a : Word} {f : Fault} (h : s.memRead a = .error f) : f = .addrRange a := by
  rcases s.locate_cases a with ⟨-, e⟩ | ⟨-, -, e⟩ | ⟨e, -⟩ <;> simp_all [State.memRead, Except.map]

/-- The only fatal error of a write is the address itself (20_memory.md R51). -/
theorem State.memWrite_error {s : State} {a v : Word} {f : Fault} (h : s.memWrite a v = .error f) :
    f = .addrRange a := by
  rcases s.locate_cases a with ⟨-, e⟩ | ⟨-, -, e⟩ | ⟨e, -⟩ <;> simp_all [State.memWrite, Except.map]

/-- Everything a write that answers can have done: a word put in MAIN, or a word put in VID. -/
theorem State.memWrite_cases {s t : State} {a v : Word} (h : s.memWrite a v = .ok t) :
    (a.toNat + 4 ≤ s.vbase ∧ t = s.setMain (Memory.writeWord s.main a.toNat v)) ∨
    (s.vbase ≤ a.toNat ∧ a.toNat + 4 ≤ s.vbase + 4096 ∧
      t = s.setVid (Memory.writeWord s.vid (a.toNat - s.vbase) v)) := by
  rcases s.locate_cases a with ⟨h1, e⟩ | ⟨h1, h2, e⟩ | ⟨e, -⟩
  · left; simp_all [State.memWrite, Except.map]
  · right; simp_all [State.memWrite, Except.map]
  · simp_all [State.memWrite, Except.map]

/-- A write keeps both instances canonical and inside their capacities. -/
theorem State.memWrite_memoryOk {s t : State} {a v : Word} (h : s.memWrite a v = .ok t) (hm : s.MemoryOk) :
    t.MemoryOk := by
  obtain ⟨h1, h2, h3, h4⟩ := hm
  rcases State.memWrite_cases h with ⟨ha, rfl⟩ | ⟨hl, ha, rfl⟩
  · exact ⟨Memory.wf_writeWord _ _ h1, Memory.below_writeWord _ h2 ha, h3, h4⟩
  · exact ⟨h1, h2, Memory.wf_writeWord _ _ h3, Memory.below_writeWord _ h4 (by simp only [Config.videoSize]; omega)⟩

/-- A byte of MAIN. -/
theorem State.byteAt_main {s : State} {a : Nat} (h : a < s.vbase) : s.byteAt a = some (Memory.read s.main a) := by
  simp [State.byteAt, byteOf, h]

/-- A byte of the video buffer. -/
theorem State.byteAt_video {s : State} {a : Nat} (h : s.vbase ≤ a) (h' : a < s.vbase + 4096) :
    s.byteAt a = some (Memory.read s.vid (a - s.vbase)) := by
  simp [State.byteAt, byteOf, Nat.not_lt.mpr h, h']

/-- No byte from N on. -/
theorem State.byteAt_outside {s : State} {a : Nat} (h : s.vbase + 4096 ≤ a) : s.byteAt a = none := by
  simp [State.byteAt, byteOf, show ¬ a < s.vbase by omega, Nat.not_lt.mpr h]

/-- The memory of the reset state is canonical. -/
theorem State.reset_memoryOk : State.reset.MemoryOk := by decide

/-- Loading an instruction for the next fetch keeps memory canonical. -/
theorem State.withFetchWord_memoryOk {s : State} (nbits w : Nat) (hm : s.MemoryOk) :
    (s.withFetchWord nbits w).MemoryOk := by
  unfold State.withFetchWord
  split
  · next t ht =>
    have h : t.MemoryOk := State.memWrite_memoryOk ht hm
    exact h
  · exact hm

end Sys2Proof.Machine
end

