-- ==== Sys2Proof/Laws/Construct.lean ====
section
/-! SUPPORT. The constructed machine: its parts, and everything construction can answer. Cite these instead of
unfolding `State.built`: the contents of the video buffer are a list over 4096 offsets. -/

namespace Sys2Proof.Machine

@[simp] theorem State.built_mainSize (m : Nat) (image : List Word) (memInit : Nat → Byte) :
    (State.built m image memInit).mainSize = m := by simp only [State.built]

@[simp] theorem State.built_vbase (m : Nat) (image : List Word) (memInit : Nat → Byte) :
    (State.built m image memInit).vbase = m := by simp only [State.vbase, State.built]

@[simp] theorem State.built_main (m : Nat) (image : List Word) (memInit : Nat → Byte) :
    (State.built m image memInit).main = Memory.ofContents m (initialByte image memInit) := by
  simp only [State.built]

@[simp] theorem State.built_vid (m : Nat) (image : List Word) (memInit : Nat → Byte) :
    (State.built m image memInit).vid =
      Memory.ofContents Config.videoSize (fun o => initialByte image memInit (m + o)) := by
  simp only [State.built]

/-- Apart from memory and its size the constructed machine is the reset state. -/
theorem State.built_eq (m : Nat) (image : List Word) (memInit : Nat → Byte) :
    State.built m image memInit =
      { State.reset with
        mainSize := m
        main := (State.built m image memInit).main
        vid := (State.built m image memInit).vid } := by
  simp only [State.built]

/-- Every byte of the constructed machine (10_state.md R30). -/
theorem State.byteAt_built (m : Nat) (image : List Word) (memInit : Nat → Byte) {a : Nat} (h : a < m + 4096) :
    (State.built m image memInit).byteAt a = some (initialByte image memInit a) := by
  by_cases ha : a < m
  · rw [State.byteAt_main (by simpa using ha), State.built_main, (Memory.ofContents_spec m _).2.2 a ha]
  · rw [State.byteAt_video (by simpa using ha) (by simpa using h), State.built_vbase, State.built_vid,
      (Memory.ofContents_spec Config.videoSize _).2.2 (a - m) (by simp only [Config.videoSize]; omega),
      show m + (a - m) = a by omega]

/-- Construction answers exactly when the capacity is legal and the image fits (00_scope.md R7,
70_reset_and_hazards.md R212). -/
theorem State.construct_cases {n : Nat} {image : List Word} {memInit : Nat → Byte} {s : State}
    (h : State.construct n image memInit = .ok s) :
    ∃ m, n = m + Config.videoSize ∧ Config.CapacityOk n ∧ 4 * image.length ≤ m ∧
      s = State.built m image memInit := by
  unfold State.construct at h
  split at h
  · cases h
  next hn =>
  split at h
  · cases h
  next hl =>
  simp only [not_not] at hn
  injection h with h
  have h1 := hn.1
  exact ⟨n - Config.videoSize, by simp only [Config.videoSize, Config.wordSize] at *; omega, hn, Nat.not_lt.mp hl,
    h.symm⟩

end Sys2Proof.Machine
end

