-- ==== Sys2Proof/Laws/Registers.lean ====
section
/-! SUPPORT. The register file: register 0, read after write, and what each port operation answers. -/

namespace Sys2Proof.Machine

@[simp] theorem RegFile.value_zero (x : RegFile) : RegFile.value x 0 = 0 := rfl
@[simp] theorem State.reg_zero (s : State) : s.reg 0 = 0 := rfl

/-- A read port inside the range (10_state.md R16). -/
theorem RegFile.read_of_lt {x : RegFile} {i : Nat} (h : i < 32) : RegFile.read x i = .ok (RegFile.value x i) := by
  simp [RegFile.read, h]

/-- A read port outside the range (10_state.md R16). -/
theorem RegFile.read_of_ge {x : RegFile} {i : Nat} (h : 32 ≤ i) : RegFile.read x i = .error (.regIndex i) := by
  simp [RegFile.read, Nat.not_lt.mpr h]

/-- The register file after a write: register 0 never changes (10_state.md R14). -/
def RegFile.put (x : RegFile) (i : Nat) (v : Word) : RegFile := if i = 0 then x else x.setIfInBounds i v

/-- The write port inside the range (10_state.md R14, R16). -/
theorem RegFile.write_of_lt {x : RegFile} {i : Nat} {v : Word} (h : i < 32) :
    RegFile.write x i v = .ok (RegFile.put x i v) := by
  simp [RegFile.write, RegFile.put, h]

/-- What each register reads after a write. -/
theorem RegFile.value_put (x : RegFile) {i : Nat} (j : Nat) (v : Word) (h : i < 32) :
    RegFile.value (RegFile.put x i v) j = if j = i ∧ i ≠ 0 then v else RegFile.value x j := by
  by_cases hi : i = 0
  · simp [RegFile.put, hi]
  · by_cases hj : j = i
    · subst hj
      simp [RegFile.put, RegFile.value, hi, h]
    · simp [RegFile.put, RegFile.value, hi, hj, show ¬ i = j from fun e => hj e.symm]

/-- A write leaves the hardwired entry alone. -/
theorem RegFile.put_entry_zero (x : RegFile) (i : Nat) (v : Word) : (RegFile.put x i v)[0] = x[0] := by
  by_cases hi : i = 0
  · simp [RegFile.put, hi]
  · simp [RegFile.put, hi]

/-- A dual read of two registers in range (10_state.md R15). -/
theorem State.readDual_of_lt {s : State} {i j : Nat} (hi : i < 32) (hj : j < 32) :
    s.readDual i j = .ok (s.reg i, s.reg j) := by
  simp [State.readDual, RegFile.cycle, RegFile.read_of_lt hi, RegFile.read_of_lt hj, State.reg, Signal.get, bind,
    Except.bind]

/-- A dual read whose first index is out of range (10_state.md R16). -/
theorem State.readDual_of_ge_left {s : State} {i j : Nat} (hi : 32 ≤ i) : s.readDual i j = .error (.regIndex i) := by
  simp [State.readDual, RegFile.cycle, RegFile.read_of_ge hi, bind, Except.bind]

/-- A dual read whose second index alone is out of range (10_state.md R16). -/
theorem State.readDual_of_ge_right {s : State} {i j : Nat} (hi : i < 32) (hj : 32 ≤ j) :
    s.readDual i j = .error (.regIndex j) := by
  simp [State.readDual, RegFile.cycle, RegFile.read_of_lt hi, RegFile.read_of_ge hj, bind, Except.bind]

/-- A register write in range (10_state.md R14, R15). -/
theorem State.writeReg_of_lt {s : State} {i : Nat} {v : Word} (h : i < 32) :
    s.writeReg i v = .ok (s.setX (RegFile.put s.x i v)) := by
  simp [State.writeReg, RegFile.cycle, RegFile.write_of_lt h, bind, Except.bind]

/-- The Write stage's commit never fails: the latched index has five bits (40_control_unit.md R107). -/
theorem State.writeBack_eq (s : State) (v : Word) :
    s.writeBack v = .ok { s.setX (RegFile.put s.x s.destReg.toNat v) with cuState := .fetch } := by
  simp [State.writeBack, State.writeReg_of_lt s.destReg.isLt, bind, Except.bind]

/-- The latched index of a register in range. -/
theorem regField_toNat {r : Nat} (h : r < 32) : (regField r).toNat = r := by
  simp [regField, Nat.mod_eq_of_lt h]

end Sys2Proof.Machine
end

