-- ==== Sys2Proof/Laws/Exec.lean ====
section
/-! SUPPORT. One lemma per shared operation of the meanings, saying everything it can do when its register numbers are
in range. -/

namespace Sys2Proof.Machine

variable {s : State}

/-! ## The ALU -/

@[simp] theorem alu_result (f : AluOp) (a b : Word) : (alu f a b).result = aluValue f a b := rfl
@[simp] theorem alu_zero (f : AluOp) (a b : Word) : (alu f a b).zero = zeroFlag (aluValue f a b) := rfl
@[simp] theorem alu_positive (f : AluOp) (a b : Word) : (alu f a b).positive = positiveFlag (aluValue f a b) := rfl

/-- A zero result is classified positive (10_state.md R20). -/
theorem positiveFlag_of_zeroFlag {r : Word} (h : zeroFlag r = true) : positiveFlag r = true := by
  simp only [zeroFlag, decide_eq_true_eq] at h
  subst h; rfl

/-! ## The operand forms -/

/-- What the 3-register form latches. -/
theorem latchThreeReg_of_lt (o : Opcode) {d a b : Nat} (hd : d < 32) (ha : a < 32) (hb : b < 32) :
    latchThreeReg o d a b s =
      .ok { s.latchOpcode o with destReg := regField d, rfOut1 := s.reg a, rfOut2 := s.reg b } := by
  simp [latchThreeReg, State.readDual_of_lt ha hb, hd, bind, Except.bind]

/-- What the register+immediate form latches. -/
theorem latchRegImm_of_lt (o : Opcode) {a : Nat} (imm : Word) (ha : a < 32) :
    latchRegImm o a imm s =
      .ok { s.latchOpcode o with destReg := regField a, rfOut1 := s.reg a, rfOut2 := 0, imm := imm } := by
  simp [latchRegImm, State.readDual_of_lt ha (show 0 < 32 by omega), bind, Except.bind]

/-- What the 1-register form latches. -/
theorem latchOneReg_of_lt (o : Opcode) {a : Nat} (ha : a < 32) :
    latchOneReg o a s = .ok { s.latchOpcode o with rfOut1 := s.reg a, rfOut2 := 0 } := by
  simp [latchOneReg, State.readDual_of_lt ha (show 0 < 32 by omega), bind, Except.bind]

/-- What the load form latches. -/
theorem latchLoad_of_lt (o : Opcode) {d a : Nat} (hd : d < 32) (ha : a < 32) :
    latchLoad o d a s =
      .ok { s.latchOpcode o with destReg := regField d, rfOut1 := s.reg a, rfOut2 := 0 } := by
  simp [latchLoad, State.readDual_of_lt ha (show 0 < 32 by omega), hd, bind, Except.bind]

/-- What the store form latches. -/
theorem latchStore_of_lt (o : Opcode) {a b : Nat} (ha : a < 32) (hb : b < 32) :
    latchStore o a b s = .ok { s.latchOpcode o with rfOut1 := s.reg a, rfOut2 := s.reg b } := by
  simp [latchStore, State.readDual_of_lt ha hb, bind, Except.bind]

/-! ## Whole instructions over shared operations -/

/-- The net effect of a 3-register instruction (40_control_unit.md R116). -/
theorem runThreeReg_of_lt (o : Opcode) (f : AluOp) {d a b : Nat} (hd : d < 32) (ha : a < 32) (hb : b < 32) :
    runThreeReg o f d a b s =
      .ok { s with
        x := RegFile.put s.x d (aluValue f (s.reg a) (s.reg b))
        pc := s.pc + 4
        zf := zeroFlag (aluValue f (s.reg a) (s.reg b))
        pf := positiveFlag (aluValue f (s.reg a) (s.reg b))
        flagsValid := true
        cuState := .fetch
        nextPc := s.pc + 4
        destReg := regField d
        aluResult := aluValue f (s.reg a) (s.reg b)
        opLatch := o.code
        rfOut1 := s.reg a
        rfOut2 := s.reg b } := by
  simp [runThreeReg, latchThreeReg_of_lt o hd ha hb, writeAluResult, State.writeBack_eq, executeAlu, State.setX,
    State.latchOpcode, regField_toNat hd, aluValue, bind, Except.bind]

/-- The net effect of a register+immediate instruction (40_control_unit.md R116). -/
theorem runRegImm_of_lt (o : Opcode) (f : AluOp) {a : Nat} (imm : Int) (ha : a < 32) :
    runRegImm o f a imm s =
      .ok { s with
        x := RegFile.put s.x a (aluValue f (s.reg a) (BitVec.ofInt 32 imm))
        pc := s.pc + 4
        zf := zeroFlag (aluValue f (s.reg a) (BitVec.ofInt 32 imm))
        pf := positiveFlag (aluValue f (s.reg a) (BitVec.ofInt 32 imm))
        flagsValid := true
        cuState := .fetch
        nextPc := s.pc + 4
        destReg := regField a
        imm := BitVec.ofInt 32 imm
        aluResult := aluValue f (s.reg a) (BitVec.ofInt 32 imm)
        opLatch := o.code
        rfOut1 := s.reg a
        rfOut2 := 0 } := by
  simp [runRegImm, latchRegImm_of_lt o (BitVec.ofInt 32 imm) ha, writeAluResult, State.writeBack_eq, executeAlu,
    State.setX, State.latchOpcode, regField_toNat ha, aluValue, bind, Except.bind]

/-! ## The flag latch -/

/-- The zero flag of a valid latch. -/
theorem State.readZero_of_valid (h : s.flagsValid = true) : s.readZero = .ok s.zf := by simp [State.readZero, h]

/-- Reading an empty latch (10_state.md R21). -/
theorem State.readZero_of_invalid (h : s.flagsValid = false) : s.readZero = .error (.undefinedSignal .flags) := by
  simp [State.readZero, h]

/-- The positive flag of a valid latch. -/
theorem State.readPositive_of_valid (h : s.flagsValid = true) : s.readPositive = .ok s.pf := by
  simp [State.readPositive, h]

/-- Reading an empty latch (10_state.md R21). -/
theorem State.readPositive_of_invalid (h : s.flagsValid = false) :
    s.readPositive = .error (.undefinedSignal .flags) := by
  simp [State.readPositive, h]

/-! ## The tick machine's inputs -/

/-- In Fetch the memory's address input is `pc`. -/
theorem memoryAddress_fetch (h : s.cuState = .fetch) : memoryAddress s = .ok s.pc := by
  simp [memoryAddress, addressDrivers, h, Bus.resolve, Signal.get, bind, Except.bind]

/-- In the Execute tick of load and store it is the first register latch. -/
theorem memoryAddress_execute (h : s.cuState = .execute)
    (ho : s.opLatch = Opcode.load.code ∨ s.opLatch = Opcode.store.code) : memoryAddress s = .ok s.rfOut1 := by
  simp [memoryAddress, addressDrivers, h, ho, Bus.resolve, Signal.get, bind, Except.bind]

/-- What a Fetch tick answers. -/
theorem fetchStage_eq (h : s.cuState = .fetch) : fetchStage s = (s.memRead s.pc).map s.afterFetch := by
  simp only [fetchStage, memoryAddress_fetch h, bind, Except.bind]
  cases s.memRead s.pc <;> rfl

/-! ## The opcode table -/

/-- Each opcode's value names it. -/
@[simp] theorem Opcode.ofCode_code (o : Opcode) : Opcode.ofCode o.code = some o := by cases o <;> rfl

/-- A value that names an opcode is that opcode's. -/
theorem Opcode.code_of_ofCode {c : Field5} {o : Opcode} (h : Opcode.ofCode c = some o) : o.code = c := by
  revert h; revert o; revert c; decide

end Sys2Proof.Machine
end

