-- ==== Sys2Proof/Laws/PerInstr.lean ====
section
/-! SUPPORT. Facts about every instruction as text, one lemma per constructor. -/

namespace Sys2Proof.Laws.EncodeOpcode

/-- The encoder's word carries the instruction's opcode in its low five bits, whatever the operands (30_encoding.md
R71, R86), so the opcode the decoder sees is the instruction's. -/
def Statement (i : Instr) : Prop :=
  opcodeField (encode i) = i.opcode.code ∧ Opcode.ofCode (opcodeField (encode i)) = some i.opcode

/-- Any layout puts the opcode in the low five bits when its other parts start at bit 5 or above. -/
theorem statement_of_low {i : Instr} (h : opcodeField (encode i) = i.opcode.code) : Statement i :=
  ⟨h, by rw [h]; cases i <;> rfl⟩

theorem nop : Statement (.nop) := by
  apply statement_of_low
  apply BitVec.eq_of_getLsbD_eq
  intro i hi
  simp [opcodeField, encode, encNoOperand, fieldAt, Instr.opcode, hi, show i < 32 by omega]

theorem addImmediate (a : Nat) (imm : Int) : Statement (.addImmediate a imm) := by
  apply statement_of_low
  apply BitVec.eq_of_getLsbD_eq
  intro i hi
  simp [opcodeField, encode, encRegImm, fieldAt, Instr.opcode, hi, show i < 32 by omega, show i < 10 by omega]

theorem subImmediate (a : Nat) (imm : Int) : Statement (.subImmediate a imm) := by
  apply statement_of_low
  apply BitVec.eq_of_getLsbD_eq
  intro i hi
  simp [opcodeField, encode, encRegImm, fieldAt, Instr.opcode, hi, show i < 32 by omega, show i < 10 by omega]

theorem add (d a b : Nat) : Statement (.add d a b) := by
  apply statement_of_low
  apply BitVec.eq_of_getLsbD_eq
  intro i hi
  simp [opcodeField, encode, encThreeReg, fieldAt, Instr.opcode, hi, show i < 32 by omega, show i < 15 by omega, show i < 10 by omega]

theorem sub (d a b : Nat) : Statement (.sub d a b) := by
  apply statement_of_low
  apply BitVec.eq_of_getLsbD_eq
  intro i hi
  simp [opcodeField, encode, encThreeReg, fieldAt, Instr.opcode, hi, show i < 32 by omega, show i < 15 by omega, show i < 10 by omega]

theorem nand (d a b : Nat) : Statement (.nand d a b) := by
  apply statement_of_low
  apply BitVec.eq_of_getLsbD_eq
  intro i hi
  simp [opcodeField, encode, encThreeReg, fieldAt, Instr.opcode, hi, show i < 32 by omega, show i < 15 by omega, show i < 10 by omega]

theorem lshift (d a b : Nat) : Statement (.lshift d a b) := by
  apply statement_of_low
  apply BitVec.eq_of_getLsbD_eq
  intro i hi
  simp [opcodeField, encode, encThreeReg, fieldAt, Instr.opcode, hi, show i < 32 by omega, show i < 15 by omega, show i < 10 by omega]

theorem jumpToReg (a : Nat) : Statement (.jumpToReg a) := by
  apply statement_of_low
  apply BitVec.eq_of_getLsbD_eq
  intro i hi
  simp [opcodeField, encode, encOneReg, fieldAt, Instr.opcode, hi, show i < 32 by omega]

theorem branchIfZero (a : Nat) : Statement (.branchIfZero a) := by
  apply statement_of_low
  apply BitVec.eq_of_getLsbD_eq
  intro i hi
  simp [opcodeField, encode, encOneReg, fieldAt, Instr.opcode, hi, show i < 32 by omega]

theorem branchIfPositive (a : Nat) : Statement (.branchIfPositive a) := by
  apply statement_of_low
  apply BitVec.eq_of_getLsbD_eq
  intro i hi
  simp [opcodeField, encode, encOneReg, fieldAt, Instr.opcode, hi, show i < 32 by omega]

theorem load (d a : Nat) : Statement (.load d a) := by
  apply statement_of_low
  apply BitVec.eq_of_getLsbD_eq
  intro i hi
  simp [opcodeField, encode, encLoadForm, fieldAt, Instr.opcode, hi, show i < 32 by omega, show i < 15 by omega]

theorem store (a b : Nat) : Statement (.store a b) := by
  apply statement_of_low
  apply BitVec.eq_of_getLsbD_eq
  intro i hi
  simp [opcodeField, encode, encStoreForm, fieldAt, Instr.opcode, hi, show i < 32 by omega, show i < 10 by omega]

theorem displayFlush : Statement (.displayFlush) := by
  apply statement_of_low
  apply BitVec.eq_of_getLsbD_eq
  intro i hi
  simp [opcodeField, encode, encNoOperand, fieldAt, Instr.opcode, hi, show i < 32 by omega]

theorem halt : Statement (.halt) := by
  apply statement_of_low
  apply BitVec.eq_of_getLsbD_eq
  intro i hi
  simp [opcodeField, encode, encNoOperand, fieldAt, Instr.opcode, hi, show i < 32 by omega]

end Sys2Proof.Laws.EncodeOpcode
end

