-- ==== Sys2Proof/Tests/Slice0.lean ====
section
/-! SUPPORT. Tests, with expected results from the spec (95_test_vectors.md, 30_encoding.md R92), and a witness for
every statement that has hypotheses: a concrete state and operands that meet them together. -/

namespace Sys2Proof.Tests

open Sys2Proof.Machine Sys2Proof.Claims

/-! ## Helpers -/

/-- The state an outcome goes on to. -/
def nextOf : Host.Outcome State Fault Refusal → Option State
  | .next t => some t
  | .fault _ => none
  | .refused _ => none

/-- The fault an outcome stops with. -/
def faultOf : Host.Outcome State Fault Refusal → Option Fault
  | .next _ => none
  | .fault f => some f
  | .refused _ => none

theorem exists_next {o : Host.Outcome State Fault Refusal} {p : State → Prop} [DecidablePred p]
    (h : (nextOf o).any (fun t => decide (p t)) = true) : ∃ t, o = .next t ∧ p t := by
  cases o with
  | next t => exact ⟨t, rfl, by simpa [nextOf] using h⟩
  | fault f => simp [nextOf] at h
  | refused q => simp [nextOf] at h

theorem eq_fault {o : Host.Outcome State Fault Refusal} {f : Fault} (h : faultOf o = some f) : o = .fault f := by
  cases o <;> simp_all [faultOf]

theorem eq_ok {α : Type} {x : Except Fault α} {a : α} (h : x.toOption = some a) : x = .ok a := by
  cases x <;> simp_all [Except.toOption]

theorem exists_ok {α : Type} {x : Except Fault α} (h : x.toOption.isSome = true) : ∃ a, x = .ok a := by
  cases x <;> simp_all [Except.toOption]

/-- The reset state with some registers set. -/
def withRegs (l : List (Nat × Word)) : State :=
  { State.reset with x := l.foldl (fun x p => x.setIfInBounds p.1 p.2) State.reset.x }

/-- The word `w` about to be fetched by a machine with some registers set. -/
def loaded (w : Word) (l : List (Nat × Word)) : State := (withRegs l).withFetchWord 32 w.toNat

/-- A flag latch that holds flags. -/
def flagged (z p : Bool) (s : State) : State := { s with zf := z, pf := p, flagsValid := true }

/-- A machine at a stage, with words in two latches. -/
def atStage (c : CuState) (memOut : Word) (op : Field5) : State :=
  { State.reset with cuState := c, memOut := memOut, opLatch := op }

/-- The reset state with another `pc`. -/
def atPc (pc : Word) : State := { State.reset with pc := pc }

/-- The step's next state, seen through `f`. -/
def stepView {α : Type} (s : State) (f : State → α) : Option α := (nextOf (step s)).map f

/-! ## WellFormed: an ill-formed term for each check -/

/-- 30_encoding.md R82: registers 0 to 31, immediates -2097152 to 2097151. -/
theorem test_wellFormed_refuses :
    Instr.wf (.addImmediate 32 0) = false ∧
    Instr.wf (.subImmediate 32 0) = false ∧
    Instr.wf (.add 32 0 0) = false ∧
    Instr.wf (.add 0 32 0) = false ∧
    Instr.wf (.add 0 0 32) = false ∧
    Instr.wf (.sub 32 0 0) = false ∧
    Instr.wf (.sub 0 32 0) = false ∧
    Instr.wf (.sub 0 0 32) = false ∧
    Instr.wf (.nand 32 0 0) = false ∧
    Instr.wf (.nand 0 32 0) = false ∧
    Instr.wf (.nand 0 0 32) = false ∧
    Instr.wf (.lshift 32 0 0) = false ∧
    Instr.wf (.lshift 0 32 0) = false ∧
    Instr.wf (.lshift 0 0 32) = false ∧
    Instr.wf (.jumpToReg 32) = false ∧
    Instr.wf (.branchIfZero 32) = false ∧
    Instr.wf (.branchIfPositive 32) = false ∧
    Instr.wf (.load 32 0) = false ∧
    Instr.wf (.load 0 32) = false ∧
    Instr.wf (.store 32 0) = false ∧
    Instr.wf (.store 0 32) = false ∧
    Instr.wf (.addImmediate 0 (-2097153)) = false ∧
    Instr.wf (.addImmediate 0 2097152) = false ∧
    Instr.wf (.subImmediate 0 (-2097153)) = false ∧
    Instr.wf (.subImmediate 0 2097152) = false := by decide

/-- The boundary operands are accepted. -/
theorem test_wellFormed_accepts :
    Instr.wf (.nop) = true ∧
    Instr.wf (.addImmediate 31 (-2097152)) = true ∧
    Instr.wf (.subImmediate 0 2097151) = true ∧
    Instr.wf (.add 31 31 31) = true ∧
    Instr.wf (.sub 0 0 0) = true ∧
    Instr.wf (.nand 31 0 31) = true ∧
    Instr.wf (.lshift 0 31 0) = true ∧
    Instr.wf (.jumpToReg 31) = true ∧
    Instr.wf (.branchIfZero 0) = true ∧
    Instr.wf (.branchIfPositive 31) = true ∧
    Instr.wf (.load 31 0) = true ∧
    Instr.wf (.store 0 31) = true ∧
    Instr.wf (.displayFlush) = true ∧
    Instr.wf (.halt) = true := by decide

/-- The external encoder refuses what has no word (60_exceptions.md R193). -/
theorem test_assemble : assemble (.add 32 0 0) = none ∧ assemble (.addImmediate 0 2097152) = none ∧
    assemble (.addImmediate 7 2097151) = some 0x7FFFFCE1#32 := by decide

/-! ## Decoding: words written out from the spec's layouts (95_test_vectors.md 2.1) -/

theorem test_decode_nop : decodeWord 0b0000000000000000000000_00000_00000 = some (.nop) := by decide
theorem test_decode_addImmediate : decodeWord 0b0000000000000001100100_00001_00001 = some (.addImmediate 1 100) := by decide
theorem test_decode_addImmediate_negative : decodeWord 0b1111111111111111111111_00010_00001 = some (.addImmediate 2 (-1)) := by decide
theorem test_decode_subImmediate : decodeWord 0b0000000000000000110010_00001_00010 = some (.subImmediate 1 50) := by decide
theorem test_decode_add : decodeWord 0b000000000000_00011_00010_00001_00011 = some (.add 3 1 2) := by decide
theorem test_decode_sub : decodeWord 0b000000000000_00011_00010_00001_00100 = some (.sub 3 1 2) := by decide
theorem test_decode_nand : decodeWord 0b000000000000_00001_00011_00010_00101 = some (.nand 1 2 3) := by decide
theorem test_decode_lshift : decodeWord 0b000000000000_00100_00110_00101_00110 = some (.lshift 4 5 6) := by decide
theorem test_decode_jumpToReg : decodeWord 0b0000000000000000000000_11111_00111 = some (.jumpToReg 31) := by decide
theorem test_decode_branchIfZero : decodeWord 0b0000000000000000000000_10001_01001 = some (.branchIfZero 17) := by decide
theorem test_decode_branchIfPositive : decodeWord 0b0000000000000000000000_01001_01010 = some (.branchIfPositive 9) := by decide
theorem test_decode_load : decodeWord 0b000000000000_11111_00000_11110_01110 = some (.load 31 30) := by decide
theorem test_decode_store : decodeWord 0b000000000000_00000_11111_11110_01111 = some (.store 30 31) := by decide
theorem test_decode_displayFlush : decodeWord 0b000000000000000000000000000_10000 = some (.displayFlush) := by decide
theorem test_decode_halt : decodeWord 0b000000000000000000000000000_10001 = some (.halt) := by decide

/-- Unused bits are ignored (30_encoding.md R83; D17). -/
theorem test_decode_unused_bits :
    decodeWord 0xFFF18823 = some (.add 3 1 2) ∧ decodeWord 0xFFFFFFF1 = some .halt ∧
    decodeWord 0x00000020 = some .nop ∧ decodeWord 0xDEADBEEF = some (.store 23 15) := by decide

/-- Unassigned opcodes name no instruction (30_encoding.md R84). -/
theorem test_decode_unassigned :
    decodeWord 0x12345678 = none ∧ decodeWord 0xFFFFFFFF = none ∧ decodeWord 0x00000008 = none ∧
    ∀ c : Field5, (Opcode.ofCode c).isNone = true ↔ c ∈ unassigned := by decide

/-- The first byte in memory is the most significant (20_memory.md R42); fewer than four bytes are no instruction. -/
theorem test_decode_bytes :
    (decode [0x00, 0x01, 0x88, 0x23, 0x55]).toOption = some (.add 3 1 2, [0x55]) ∧
    (decode [0x00, 0x01, 0x88]).toOption = none ∧ (decode [0, 0, 0, 8]).toOption = none := by decide

theorem test_encode :
    encode (.addImmediate 7 (-2097152)) = 0x800000E1#32 ∧ encode (.subImmediate 31 2097151) = 0x7FFFFFE2#32 ∧
    encode (.add 31 31 31) = 0x000FFFE3#32 ∧ encode (.load 31 30) = 0x000F83CE#32 ∧
    encode (.store 0 1) = 0x0000040F#32 := by decide

theorem test_decodeTableWord :
    decodeTableWord 32 0x00008C45 = some (.nand 1 2 3) ∧ decodeTableWord 32 0xFFFFFFFF = none := by decide

/-! ## One step of each instruction (95_test_vectors.md 2.2 to 2.6) -/

theorem test_add_signed_wrap :
    stepView (loaded 0x00018823 [(1, 0x7FFFFFFF), (2, 1)]) (fun t => (t.reg 3, t.zf, t.pf, t.flagsValid, t.pc)) =
      some (0x80000000, false, false, true, 4) := by decide

/-- The write is discarded, the flags are those of the computed value. -/
theorem test_add_register_zero :
    stepView (loaded 0x00000823 [(1, 1), (2, 0xFFFFFFFF)]) (fun t => (t.reg 0, t.zf, t.pf, t.flagsValid, t.pc)) =
      some (0, true, true, true, 4) := by decide

theorem test_sub_order :
    stepView (loaded 0x00018824 [(1, 0), (2, 0x32)]) (fun t => (t.reg 3, t.zf, t.pf, t.flagsValid, t.pc)) =
      some (0xFFFFFFCE, false, false, true, 4) := by decide

theorem test_sub_signed_wrap :
    stepView (loaded 0x00018824 [(1, 0x80000000), (2, 1)]) (fun t => (t.reg 3, t.zf, t.pf, t.flagsValid, t.pc)) =
      some (0x7FFFFFFF, false, true, true, 4) := by decide

theorem test_nand :
    stepView (loaded 0x00008C45 [(2, 0xF0F0F0F0), (3, 0xFF00FF00)]) (fun t => (t.reg 1, t.zf, t.pf, t.flagsValid, t.pc)) =
      some (0x0FFF0FFF, false, true, true, 4) := by decide

theorem test_lshift_count_is_low_five_bits :
    stepView (loaded 0x000218A6 [(5, 3), (6, 0xFFFFFFFF)]) (fun t => (t.reg 4, t.zf, t.pf, t.flagsValid, t.pc)) =
      some (0x80000000, false, false, true, 4) := by decide

theorem test_lshift_by_32 :
    stepView (loaded 0x000218A6 [(5, 1), (6, 0x20)]) (fun t => (t.reg 4, t.zf, t.pf, t.flagsValid, t.pc)) =
      some (1, false, true, true, 4) := by decide

theorem test_addImmediate_smallest :
    stepView (loaded 0x80000021 []) (fun t => (t.reg 1, t.zf, t.pf, t.flagsValid, t.pc)) =
      some (0xFFE00000, false, false, true, 4) := by decide

theorem test_addImmediate_register_zero :
    stepView (loaded 0x00019001 []) (fun t => (t.reg 0, t.zf, t.pf, t.flagsValid, t.pc)) =
      some (0, false, true, true, 4) := by decide

theorem test_subImmediate_smallest :
    stepView (loaded 0x80000022 []) (fun t => (t.reg 1, t.zf, t.pf, t.flagsValid, t.pc)) =
      some (0x00200000, false, true, true, 4) := by decide

theorem test_subImmediate :
    stepView (loaded 0x0000C822 [(1, 0x64)]) (fun t => (t.reg 1, t.zf, t.pf, t.flagsValid, t.pc)) =
      some (0x32, false, true, true, 4) := by decide

theorem test_jumpToReg :
    stepView (loaded 0x00000067 [(3, 0x0C)]) (fun t => (t.pc, t.flagsValid)) =
      some (0x0C, false) := by decide

theorem test_branchIfZero_taken :
    stepView (flagged true true (loaded 0x00000089 [(4, 0x1C)])) (fun t => (t.pc, t.zf, t.pf)) =
      some (0x1C, true, true) := by decide

theorem test_branchIfZero_not_taken :
    stepView (flagged false true (loaded 0x00000089 [(4, 0x1C)])) (fun t => (t.pc, t.zf, t.pf)) =
      some (4, false, true) := by decide

theorem test_branchIfPositive_taken_on_zero :
    stepView (flagged true true (loaded 0x000000AA [(5, 0x14)])) (fun t => (t.pc, t.zf, t.pf)) =
      some (0x14, true, true) := by decide

theorem test_branchIfPositive_not_taken :
    stepView (flagged false false (loaded 0x000000AA [(5, 0x14)])) (fun t => (t.pc, t.zf, t.pf)) =
      some (4, false, false) := by decide

theorem test_branch_without_flags :
    faultOf (step (loaded 0x00000009 [])) = some (.undefinedSignal .flags) ∧
    faultOf (step (loaded 0x0000000A [])) = some (.undefinedSignal .flags) := by decide

/-- Bytes 0x20 to 0x27 of 95_test_vectors.md 2.4, with a load or store at address 0. -/
def preset (w : Word) (l : List (Nat × Word)) : State :=
  { loaded w l with
    main := Memory.writeWord (Memory.writeWord (loaded w l).main 0x20 0x11223344) 0x24 0x55667788 }

theorem test_load_unaligned :
    stepView (preset 0x0001002E [(1, 0x21)]) (fun t => (t.reg 2, t.pc, t.flagsValid)) = some (0x22334455, 4, false) := by
  decide

theorem test_load_address_register_is_destination :
    stepView (preset 0x0000802E [(1, 0x20)]) (fun t => (t.reg 1, t.pc)) = some (0x11223344, 4) := by decide

theorem test_store_unaligned :
    stepView (preset 0x0000082F [(1, 0x22), (2, 0xAABBCCDD)])
      (fun t => ((debugRead t 0x20).toOption, (debugRead t 0x24).toOption, t.pc)) =
      some (some 0x1122AABB, some 0xCCDD7788, 4) := by decide

theorem test_store_video_routes_to_video :
    stepView (loaded 0x0000082F [(1, 0x1000), (2, 0x41424300)])
      (fun t => (t.vid, (debugRead t 0x1000).toOption)) =
      some ([(0, 0x41), (1, 0x42), (2, 0x43)], some 0x41424300) := by decide

/-- The last word of each instance is legal and the next address is not (F4, F5, F6). -/
theorem test_address_edges :
    (nextOf (step (loaded 0x0001002E [(1, 0x0FFC)]))).isSome = true ∧
    faultOf (step (loaded 0x0001002E [(1, 0x0FFD)])) = some (.addrRange 0x0FFD) ∧
    (nextOf (step (loaded 0x0000002F [(1, 0x1FFC)]))).isSome = true ∧
    faultOf (step (loaded 0x0000002F [(1, 0x1FFD)])) = some (.addrRange 0x1FFD) ∧
    faultOf (step (loaded 0x0000002F [(1, 0xFFFFFFFC)])) = some (.addrRange 0xFFFFFFFC) := by decide

theorem test_nop_any_upper_bits :
    stepView (loaded 0x00000020 []) (fun t => (t.pc, t.flagsValid, t.cuState)) = some (4, false, .fetch) := by decide

/-- The snapshot is the video buffer at the tick. -/
theorem test_displayFlush :
    stepView { loaded 0x00000010 [] with vid := [(0, 0x48), (1, 0x49), (2, 0x21)] } (fun t => (t.trace, t.pc)) =
      some ([.render [(0, 0x48), (1, 0x49), (2, 0x21)]], 4) := by decide

theorem test_halt :
    stepView (loaded 0x00000011 []) (fun t => (t.halted, t.cuState, t.trace)) = some (true, .fetch, []) := by decide

/-- An unassigned opcode stops the machine (F3). -/
theorem test_unassigned_opcode : faultOf (step (loaded 0x00000008 [])) = some (.badOpcode 8) := by decide

/-- Ticks 5 and 6 of the trace of P1: Fetch clears the scratch registers, Decode latches the subImmediate. -/
theorem test_trace_of_P1 :
    (let s := flagged false true { loaded 0x0000C822 [(1, 0x64)] with nextPc := 4, destReg := 1, aluResult := 0x64 }
    let t := tickN 1 s
    let u := tickN 2 s
    (t.memOut, t.opLatch, t.destReg, t.imm, t.nextPc, t.aluResult) = (0x0000C822, 0, 0, 0, 0, 0) ∧
    (u.opLatch, u.destReg, u.imm, u.rfOut1, u.rfOut2, u.aluResult) = (2, 1, 0x32, 0x64, 0, 0)) := by decide

/-! ## Witnesses -/

theorem witness_DecodeOfEncodeIsIdentity :
    Instr.WellFormed (.nop) ∧ Instr.WellFormed (.addImmediate 31 (-2097152)) ∧ Instr.WellFormed (.subImmediate 0 2097151) ∧ Instr.WellFormed (.add 31 31 31) ∧
    Instr.WellFormed (.sub 0 0 0) ∧ Instr.WellFormed (.nand 31 0 31) ∧ Instr.WellFormed (.lshift 0 31 0) ∧ Instr.WellFormed (.jumpToReg 31) ∧
    Instr.WellFormed (.branchIfZero 0) ∧ Instr.WellFormed (.branchIfPositive 31) ∧ Instr.WellFormed (.load 31 0) ∧ Instr.WellFormed (.store 0 31) ∧ Instr.WellFormed (.displayFlush) ∧ Instr.WellFormed (.halt) := by decide

theorem witness_UnusedBitsAreIgnored :
    decodeWord 0x00018823 = some (.add 3 1 2) ∧
    0xFFF18823#32 &&& (Instr.add 3 1 2).opcode.usedMask = 0x00018823#32 &&& (Instr.add 3 1 2).opcode.usedMask ∧
    0xFFF18823#32 ≠ 0x00018823#32 := by decide

theorem witness_UnassignedOpcodesAreFatalInDecode :
    (∀ op ∈ [8, 11, 13, 18, 31], (atStage .decode (BitVec.ofNat 32 op) 0).cuState = .decode ∧
      (atStage .decode (BitVec.ofNat 32 op) 0).halted = false ∧ (atStage .decode (BitVec.ofNat 32 op) 0).fault = none ∧
      opcodeField (atStage .decode (BitVec.ofNat 32 op) 0).memOut ∈ unassigned) ∧
    ∀ op ∈ [0, 7, 9, 10, 14, 17], (atStage .decode (BitVec.ofNat 32 op) 0).cuState = .decode ∧
      (atStage .decode (BitVec.ofNat 32 op) 0).halted = false ∧ (atStage .decode (BitVec.ofNat 32 op) 0).fault = none ∧
      opcodeField (atStage .decode (BitVec.ofNat 32 op) 0).memOut ∉ unassigned := by decide

theorem witness_EncoderIsShiftsAndOrs :
    (0 < 32 ∧ 31 < 32) ∧ ((-2097152 : Int) ≤ -2097152 ∧ (-2097152 : Int) ≤ 2097151) ∧
    (-2097152 : Int) ≤ 2097151 ∧ (2097151 : Int) ≤ 2097151 := by decide

theorem witness_ImmediateIsTheWordShiftedArithmetically :
    (decoder 0xFFFFFC41).toOption = some ⟨.addImmediate, .defined 2, .undefined, .undefined, .defined 0xFFFFFFFF⟩ ∧
    (decoder 0x00018823).toOption = some ⟨.add, .defined 1, .defined 2, .defined 3, .undefined⟩ := by decide

theorem witness_DecodeReadsOnlyDefinedFields :
    ∃ f, decodeStage (atStage .decode 8 0) = .error f := ⟨.badOpcode 8, rfl⟩

theorem witness_AluComputesItsFourOperations :
    (0 < 32 ∧ 31 < 32) ∧ (alu .add 0xFFFFFFFF 1).zero = true := by decide

theorem witness_RegisterFilePorts :
    (0 < 1 ∧ 1 < 32 ∧ 0 < 32 ∧ 0 ≠ 1) ∧ 0 < 31 ∧ 31 < 32 ∧ 31 ≠ 1 := by decide

theorem witness_RegisterIndexAbove31IsFatal :
    31 < 32 ∧ (∃ r ∈ regsOf (.load 32 0), 31 < r) ∧ State.reset.fault = none := by decide

theorem witness_BusContentionIsUnreachable :
    2 ≤ [(0 : Word), 0].length ∧ State.reset.fault = none := by decide

theorem witness_WriteWithoutWriteBackIsUnreachable :
    (State.reset.opLatch ∉ arithmetic ∧ State.reset.opLatch ≠ 14) ∧ State.reset.Inv ∧ State.reset.fault = none := by decide

theorem witness_InstanceRangeCheck :
    (4 ≤ 4096 ∧ 4092 ≤ 4096 - 4 ∧ 4096 - 4 < 4093) ∧ 4 ≤ State.reset.mainSize ∧
    (State.reset.memRead 4092).toOption = some 0 ∧ (State.reset.memRead 8188).toOption = some 0 ∧
    (State.reset.memWrite 4096 1).toOption.isSome = true := by decide

theorem witness_LegalAddresses :
    State.reset.Legal 0 ∧ State.reset.Legal 4092 ∧ ¬ State.reset.Legal 4093 ∧ ¬ State.reset.Legal 4095 ∧
    State.reset.Legal 4096 ∧ State.reset.Legal 8188 ∧ ¬ State.reset.Legal 8189 ∧ ¬ State.reset.Legal 8192 ∧
    ¬ State.reset.Legal 0xFFFFFFFF := by decide

theorem witness_MemoryRoundTrip :
    State.reset.MemoryOk ∧ (∃ t, State.reset.memWrite 4092 0x12345678 = .ok t) ∧
    ∃ t, State.reset.memWrite 4096 0x12345678 = .ok t := ⟨by decide, exists_ok (by decide), exists_ok (by decide)⟩

theorem witness_ReadsAreBigEndian :
    ∃ w, State.reset.memRead 8188 = .ok w := exists_ok (by decide)

theorem witness_AddInstruction :
    (opcodeField 0x00018823 = 3 ∧ (3 < 32 ∧ 1 < 32 ∧ 2 < 32) ∧ (0 < 32 ∧ 31 < 32) ∧ (loaded 0x00018823 []).Ready ∧
      (loaded 0x00018823 []).Fetches (.add 3 1 2)) ∧
    ∃ t, step (loaded 0x00018823 []) = .next t ∧ t.cuState = .fetch := ⟨by decide, exists_next (by decide)⟩

theorem witness_SubInstruction :
    (opcodeField 0x00018824 = 4 ∧ (3 < 32 ∧ 1 < 32 ∧ 2 < 32) ∧ (0 < 32 ∧ 31 < 32) ∧ (loaded 0x00018824 []).Ready ∧
      (loaded 0x00018824 []).Fetches (.sub 3 1 2)) ∧
    ∃ t, step (loaded 0x00018824 []) = .next t ∧ t.cuState = .fetch := ⟨by decide, exists_next (by decide)⟩

theorem witness_NandInstruction :
    (opcodeField 0x00008C45 = 5 ∧ (3 < 32 ∧ 1 < 32 ∧ 2 < 32) ∧ (0 < 32 ∧ 31 < 32) ∧ (loaded 0x00008C45 []).Ready ∧
      (loaded 0x00008C45 []).Fetches (.nand 1 2 3)) ∧
    ∃ t, step (loaded 0x00008C45 []) = .next t ∧ t.cuState = .fetch := ⟨by decide, exists_next (by decide)⟩

theorem witness_LshiftInstruction :
    (opcodeField 0x000218A6 = 6 ∧ (4 < 32 ∧ 5 < 32 ∧ 6 < 32) ∧ (0 < 32 ∧ 31 < 32) ∧ (loaded 0x000218A6 []).Ready ∧
      (loaded 0x000218A6 []).Fetches (.lshift 4 5 6)) ∧
    ∃ t, step (loaded 0x000218A6 []) = .next t ∧ t.cuState = .fetch := ⟨by decide, exists_next (by decide)⟩

theorem witness_AddImmediateInstruction :
    (opcodeField 0xFFFFFC41 = 1 ∧ 2 < 32 ∧ ((-2097152 : Int) ≤ -1 ∧ (-1 : Int) ≤ 2097151) ∧ (loaded 0xFFFFFC41 []).Ready ∧
      (loaded 0xFFFFFC41 []).Fetches (.addImmediate 2 (-1))) ∧
    ∃ t, step (loaded 0xFFFFFC41 []) = .next t ∧ t.cuState = .fetch := ⟨by decide, exists_next (by decide)⟩

theorem witness_SubImmediateInstruction :
    (opcodeField 0x80000022 = 2 ∧ 1 < 32 ∧ (-2097152 : Int) ≤ 2097151 ∧ (loaded 0x80000022 []).Ready ∧
      (loaded 0x80000022 []).Fetches (.subImmediate 1 (-2097152))) ∧
    ∃ t, step (loaded 0x80000022 []) = .next t ∧ t.cuState = .fetch := ⟨by decide, exists_next (by decide)⟩

theorem witness_JumpToRegInstruction :
    (opcodeField 0x00000067 = 7 ∧ 3 < 32 ∧ (loaded 0x00000067 []).Ready ∧
      (loaded 0x00000067 []).Fetches (.jumpToReg 3)) ∧
    ∃ t, step (loaded 0x00000067 []) = .next t ∧ t.cuState = .fetch := ⟨by decide, exists_next (by decide)⟩

theorem witness_BranchIfZeroInstruction :
    (opcodeField 0x00000229 = 9 ∧ 17 < 32 ∧ State.reset.flagsValid = false ∧ (flagged true true (loaded 0x00000229 [])).flagsValid = true ∧ (flagged true true (loaded 0x00000229 [])).Ready ∧
      (flagged true true (loaded 0x00000229 [])).Fetches (.branchIfZero 17)) ∧
    ∃ t, step (flagged true true (loaded 0x00000229 [])) = .next t ∧ t.cuState = .fetch := ⟨by decide, exists_next (by decide)⟩

theorem witness_BranchIfPositiveInstruction :
    (opcodeField 0x0000012A = 10 ∧ 9 < 32 ∧ State.reset.flagsValid = false ∧ (flagged false false (loaded 0x0000012A [])).flagsValid = true ∧ (flagged false false (loaded 0x0000012A [])).Ready ∧
      (flagged false false (loaded 0x0000012A [])).Fetches (.branchIfPositive 9)) ∧
    ∃ t, step (flagged false false (loaded 0x0000012A [])) = .next t ∧ t.cuState = .fetch := ⟨by decide, exists_next (by decide)⟩

theorem witness_LoadInstruction :
    (opcodeField 0x0001002E = 14 ∧ (2 < 32 ∧ 1 < 32 ∧ 2 ≠ 0) ∧ (withRegs [(1, 0x1FFC)]).Legal ((withRegs [(1, 0x1FFC)]).reg 1) ∧
      ¬ (withRegs [(1, 0x1FFD)]).Legal ((withRegs [(1, 0x1FFD)]).reg 1) ∧ (loaded 0x0001002E [(1, 0x1FFC)]).Ready ∧
      (loaded 0x0001002E [(1, 0x1FFC)]).Fetches (.load 2 1)) ∧
    ∃ t, step (loaded 0x0001002E [(1, 0x1FFC)]) = .next t ∧ t.cuState = .fetch := ⟨by decide, exists_next (by decide)⟩

theorem witness_StoreInstruction :
    (opcodeField 0x0000082F = 15 ∧ (1 < 32 ∧ 2 < 32) ∧ (withRegs [(1, 0x0FFC)]).MemoryOk ∧ (withRegs [(1, 0x0FFC)]).Legal ((withRegs [(1, 0x0FFC)]).reg 1) ∧
      ¬ (withRegs [(1, 0x0FFD)]).Legal ((withRegs [(1, 0x0FFD)]).reg 1) ∧ (loaded 0x0000082F [(1, 0x0FFC)]).Ready ∧
      (loaded 0x0000082F [(1, 0x0FFC)]).Fetches (.store 1 2)) ∧
    ∃ t, step (loaded 0x0000082F [(1, 0x0FFC)]) = .next t ∧ t.cuState = .fetch := ⟨by decide, exists_next (by decide)⟩

theorem witness_NopInstruction :
    (opcodeField 0x00000020 = 0 ∧ (loaded 0x00000020 []).Ready ∧
      (loaded 0x00000020 []).Fetches (.nop)) ∧
    ∃ t, step (loaded 0x00000020 []) = .next t ∧ t.cuState = .fetch := ⟨by decide, exists_next (by decide)⟩

theorem witness_DisplayFlushInstruction :
    (opcodeField 0x00000010 = 16 ∧ 4095 < 4096 ∧ (loaded 0x00000010 []).Ready ∧
      (loaded 0x00000010 []).Fetches (.displayFlush)) ∧
    ∃ t, step (loaded 0x00000010 []) = .next t ∧ t.cuState = .fetch := ⟨by decide, exists_next (by decide)⟩

theorem witness_HaltInstruction :
    (opcodeField 0x00000011 = 17 ∧ (loaded 0x00000011 []).Ready ∧
      (loaded 0x00000011 []).Fetches (.halt)) ∧
    ∃ t, step (loaded 0x00000011 []) = .next t ∧ t.cuState = .fetch := ⟨by decide, exists_next (by decide)⟩

theorem witness_ScratchLatchesAfterAnInstruction :
    ∀ i ∈ ([.addImmediate 31 (-1), .subImmediate 1 2097151, .add 31 0 1, .lshift 0 31 1, .load 31 0, .store 0 31, .jumpToReg 31,
      .nop, .halt] : List Instr), i.WellFormed ∧ ∃ t, exec i State.reset = .next t ∧ t.cuState = .fetch := by
  intro i hi
  simp only [List.mem_cons, List.not_mem_nil, or_false] at hi
  rcases hi with rfl | rfl | rfl | rfl | rfl | rfl | rfl | rfl | rfl <;> exact ⟨by decide, exists_next (by decide)⟩

theorem witness_InstructionsFaultOnlyAsTabulated :
    (Instr.branchIfZero 31).WellFormed ∧ exec (.branchIfZero 31) State.reset = .fault (.undefinedSignal .flags) ∧
    (Instr.load 0 1).WellFormed ∧ exec (.load 0 1) (withRegs [(1, 0x0FFD)]) = .fault (.addrRange 0x0FFD) := ⟨by decide, eq_fault (by decide), by decide, eq_fault (by decide)⟩

theorem witness_FetchTick :
    ((atPc 0).Ready ∧ (atPc 0).Legal (atPc 0).pc) ∧
    ((atPc 4092).Ready ∧ (atPc 4092).Legal (atPc 4092).pc) ∧
    ((atPc 4096).Ready ∧ (atPc 4096).Legal (atPc 4096).pc) ∧
    ((atPc 8188).Ready ∧ (atPc 8188).Legal (atPc 8188).pc) ∧
    ((atPc 4093).Ready ∧ ¬ (atPc 4093).Legal (atPc 4093).pc) ∧
    ((atPc 4095).Ready ∧ ¬ (atPc 4095).Legal (atPc 4095).pc) ∧
    ((atPc 8189).Ready ∧ ¬ (atPc 8189).Legal (atPc 8189).pc) ∧
    ((atPc 8192).Ready ∧ ¬ (atPc 8192).Legal (atPc 8192).pc) := by decide

theorem witness_DecodeTick :
    ((atStage .decode 0x00018823 0).cuState = .decode ∧ (atStage .decode 0x00018823 0).halted = false ∧
      (atStage .decode 0x00018823 0).fault = none ∧ (tick (atStage .decode 0x00018823 0)).2 = .returned false) ∧
    ((atStage .decode 0xFFFFFC41 0).cuState = .decode ∧ (atStage .decode 0xFFFFFC41 0).halted = false ∧
      (atStage .decode 0xFFFFFC41 0).fault = none ∧ (tick (atStage .decode 0xFFFFFC41 0)).2 = .returned false) ∧
    ((atStage .decode 0x00000067 0).cuState = .decode ∧ (atStage .decode 0x00000067 0).halted = false ∧
      (atStage .decode 0x00000067 0).fault = none ∧ (tick (atStage .decode 0x00000067 0)).2 = .returned false) ∧
    ((atStage .decode 0x0001002E 0).cuState = .decode ∧ (atStage .decode 0x0001002E 0).halted = false ∧
      (atStage .decode 0x0001002E 0).fault = none ∧ (tick (atStage .decode 0x0001002E 0)).2 = .returned false) ∧
    ((atStage .decode 0x0000082F 0).cuState = .decode ∧ (atStage .decode 0x0000082F 0).halted = false ∧
      (atStage .decode 0x0000082F 0).fault = none ∧ (tick (atStage .decode 0x0000082F 0)).2 = .returned false) ∧
    ((atStage .decode 0x00000011 0).cuState = .decode ∧ (atStage .decode 0x00000011 0).halted = false ∧
      (atStage .decode 0x00000011 0).fault = none ∧ (tick (atStage .decode 0x00000011 0)).2 = .returned false) := by decide

theorem witness_StageTransitions :
    ((State.reset).halted = false ∧ (State.reset).fault = none ∧ (tick (State.reset)).2 = .returned (tick (State.reset)).1.halted) ∧
    ((atStage .decode 0 0).halted = false ∧ (atStage .decode 0 0).fault = none ∧ (tick (atStage .decode 0 0)).2 = .returned (tick (atStage .decode 0 0)).1.halted) ∧
    ((atStage .execute 0 6).halted = false ∧ (atStage .execute 0 6).fault = none ∧ (tick (atStage .execute 0 6)).2 = .returned (tick (atStage .execute 0 6)).1.halted) ∧
    ((atStage .execute 0 17).halted = false ∧ (atStage .execute 0 17).fault = none ∧ (tick (atStage .execute 0 17)).2 = .returned (tick (atStage .execute 0 17)).1.halted) ∧
    ((atStage .write 0 6).halted = false ∧ (atStage .write 0 6).fault = none ∧ (tick (atStage .write 0 6)).2 = .returned (tick (atStage .write 0 6)).1.halted) := by decide

theorem witness_WriteStage :
    (∀ op ∈ ([1, 6, 14, 0, 15] : List Field5), (atStage .write 0 op).cuState = .write ∧ (atStage .write 0 op).halted = false ∧
      (atStage .write 0 op).fault = none) ∧
    ((1 : Field5) ∈ arithmetic ∧ (6 : Field5) ∈ arithmetic ∧ (14 : Field5) ∉ arithmetic ∧ (15 : Field5) ∉ arithmetic) ∧
    (atStage .execute 0 6).cuState ≠ .write ∧ (tick (atStage .execute 0 6)).1.cuState = .write ∧
    { atStage .write 0 6 with destReg := 31 }.destReg ≠ 0 := by decide

theorem witness_WhichTickChangesWhat :
    (¬ (State.reset.cuState = .execute ∧ State.reset.opLatch ∈ arithmetic)) ∧
    (¬ ((atStage .execute 0 16).cuState = .execute ∧ (atStage .execute 0 16).opLatch = 15)) ∧
    (¬ ((atStage .execute 0 15).cuState = .execute ∧ (atStage .execute 0 15).opLatch = 16)) ∧
    (atStage .write 0 6).cuState ≠ .execute := by decide

theorem witness_HaltedTicksDoNothing :
    { State.reset with halted := true }.halted = true ∧ { State.reset with halted := true }.fault = none := by decide

theorem witness_HaltedFlagIsSetOnlyByHalt :
    ((atStage .execute 0x11 17).halted = false ∧ (tick (atStage .execute 0x11 17)).1.halted = true) ∧
    { State.reset with halted := true }.halted = true ∧ { State.reset with halted := true }.fault = none := by decide

theorem witness_FatalTicksCommitNothing :
    (atStage .decode 8 0).fault = none ∧ ∃ t, tick (atStage .decode 8 0) = (t, .fatal (.badOpcode 8)) := ⟨rfl, _, rfl⟩

theorem witness_ReachableFatalErrors :
    ∀ p ∈ ([(atPc 8192, .addrRange 8192), (atStage .decode 8 0, .badOpcode 8),
      ({ atStage .execute 9 9 with nextPc := 4 }, .undefinedSignal .flags),
      ({ atStage .execute 10 10 with nextPc := 4 }, .undefinedSignal .flags),
      ({ atStage .execute 14 14 with nextPc := 4, rfOut1 := 8189 }, .addrRange 8189),
      ({ atStage .execute 15 15 with nextPc := 4, rfOut1 := 4093 }, .addrRange 4093)] : List (State × Fault)),
    p.1.Inv ∧ p.1.fault = none ∧ (tick p.1).2 = .fatal p.2 := by decide

theorem witness_RunEndsInOneWay :
    State.reset.HaltOk ∧ { State.reset with halted := true }.HaltOk := by decide

theorem witness_StepRunsTheDecodedInstruction :
    (loaded 0x00018823 []).Ready ∧ (loaded 0x00018823 []).Legal (loaded 0x00018823 []).pc ∧
    (loaded 0x00018823 []).pc.toNat = 0 ∧ (loaded 0x00018823 []).byteAt 0 = some 0x00 ∧
    (loaded 0x00018823 []).byteAt 1 = some 0x01 ∧ (loaded 0x00018823 []).byteAt 2 = some 0x88 ∧
    (loaded 0x00018823 []).byteAt 3 = some 0x23 ∧
    decode [0x00, 0x01, 0x88, 0x23] = .ok (.add 3 1 2, []) := ⟨by decide, by decide, by decide, by decide, by decide, by decide, by decide, rfl⟩

theorem witness_StepStopsOnABadFetch :
    { State.reset with fault := some .wiring }.fault = some .wiring ∧
    ((atPc 8189).Ready ∧ ¬ (atPc 8189).Legal (atPc 8189).pc) ∧
    ((loaded 8 []).Ready ∧ (loaded 8 []).memRead (loaded 8 []).pc = .ok 8 ∧ opcodeField 8 ∈ unassigned) ∧
    (loaded 7 []).memRead (loaded 7 []).pc = .ok 7 ∧ opcodeField 7 ∉ unassigned := ⟨by decide, by decide, ⟨by decide, eq_ok (by decide), by decide⟩, eq_ok (by decide), by decide⟩

theorem witness_WithFetchWordRunsTheWord :
    State.reset.MemoryOk ∧ State.reset.Legal State.reset.pc ∧ decodeWord 0x00018823 = some (.add 3 1 2) := by decide

theorem witness_StepIsItsTicks :
    (loaded 0x00018823 []).Ready ∧ (∃ t, step (loaded 0x00018823 []) = .next t ∧ t.pc = 4) ∧
    step (loaded 0x00000009 []) = .fault (.undefinedSignal .flags) := ⟨by decide, exists_next (by decide), eq_fault (by decide)⟩

theorem witness_StepFinishesTheInstructionInFlight :
    (∃ t, step (atStage .decode 0x00018823 0) = .next t ∧ t.pc = 4) ∧ (atStage .decode 0x00018823 0).halted = false ∧
    (∃ t, step (atStage .write 0 6) = .next t ∧ t.pc = 0) ∧
    ∃ t, step { State.reset with halted := true } = .next t ∧ t.halted = true := ⟨exists_next (by decide), by decide, exists_next (by decide), exists_next (by decide)⟩

theorem witness_FaultsArePrecise :
    (loaded 0x0000002F [(1, 0x1FFD)]).Ready ∧ step (loaded 0x0000002F [(1, 0x1FFD)]) = .fault (.addrRange 0x1FFD) := ⟨by decide, eq_fault (by decide)⟩

theorem witness_StoreIsSeenByTheNextFetch :
    (withRegs [(1, 4), (2, 0x11)]).MemoryOk ∧ 1 < 32 ∧ 2 < 32 ∧
    decodeWord ((withRegs [(1, 4), (2, 0x11)]).reg 2) = some .halt ∧
    ∃ t, exec (.store 1 2) (withRegs [(1, 4), (2, 0x11)]) = .next t ∧ t.pc = (withRegs [(1, 4), (2, 0x11)]).reg 1 := ⟨by decide, by decide, by decide, by decide, exists_next (by decide)⟩

theorem witness_StepKeepsTheInvariant :
    (loaded 0x00018823 [(1, 1)]).Inv ∧ ∃ t, step (loaded 0x00018823 [(1, 1)]) = .next t ∧ t.reg 3 = 1 := ⟨by decide, exists_next (by decide)⟩

theorem witness_TickKeepsTheInvariant :
    (loaded 0x00018823 [(1, 1)]).Inv ∧ { loaded 0x00018823 [] with pc := 8192 }.Inv := by decide

theorem witness_ConstructionMeetsTheInvariant :
    ∃ s, State.construct 4100 [0x11] (fun _ => 0xFF) = .ok s := by
  unfold State.construct
  rw [if_neg (by decide), if_neg (by decide)]
  exact ⟨_, rfl⟩

theorem witness_ConstructionPlacesTheImage :
    (4100 ≤ 4100 ∧ 4100 ≤ 2 ^ 31 ∧ 4100 % 4 = 0 ∧ 4 * [(0x11 : Word)].length ≤ 4100 - 4096 ∧
      0 < [(0x11 : Word)].length ∧ 4 * [(0x11 : Word)].length ≤ 4099 ∧ 4099 < 4100) ∧
    (2 ^ 31 ≤ 2 ^ 31 ∧ 2 ^ 31 % 4 = 0) ∧ (¬ (4100 ≤ 4096 ∧ 4096 ≤ 2 ^ 31 ∧ 4096 % 4 = 0)) ∧
    (¬ (4100 ≤ 4102 ∧ 4102 ≤ 2 ^ 31 ∧ 4102 % 4 = 0)) ∧ 4100 - 4096 < 4 * [(0x11 : Word), 0].length := by decide

theorem witness_RenderedTextGeometry :
    (0 < 64 ∧ 63 < 64) ∧ 0 < 60 ∧ 59 < 60 := by decide

end Sys2Proof.Tests
end

