-- ==== Sys2Proof/Proofs/InstanceRange.lean ====
section
/-! PROOF. The range check of one memory instance, and the accesses that pass it (20_memory.md R46). -/

namespace Sys2Proof.Machine

/-- An instance accepts an access exactly if its four bytes end inside. -/
theorem Memory.check_eq_ok {cap o : Nat} {a : Word} : Memory.check cap o a = .ok () ↔ o + 4 ≤ cap := by
  unfold Memory.check
  split <;> simp_all

/-- An access that would end outside the instance is fatal with its address. -/
theorem Memory.check_eq_error {cap o : Nat} {a : Word} (h : cap < o + 4) :
    Memory.check cap o a = .error (.addrRange a) :=
  if_neg (by simp only [Config.wordSize]; omega)

/-- A read that answers is at a legal address. -/
theorem State.legal_of_memRead {s : State} {a w : Word} (h : s.memRead a = .ok w) : s.Legal a := by
  rcases s.locate_cases a with ⟨hmain, -⟩ | ⟨hlow, hhigh, -⟩ | ⟨hfatal, -⟩
  · exact .inl hmain
  · exact .inr ⟨hlow, hhigh⟩
  · simp [State.memRead, hfatal, Except.map] at h

/-- A write that answers is at a legal address. -/
theorem State.legal_of_memWrite {s t : State} {a v : Word} (h : s.memWrite a v = .ok t) : s.Legal a := by
  rcases State.memWrite_cases h with ⟨hmain, -⟩ | ⟨hlow, hhigh, -⟩
  · exact .inl hmain
  · exact .inr ⟨hlow, hhigh⟩

/-- At a legal address the offset lies at most at capacity minus 4 of the instance the address falls in. -/
theorem State.Legal.offset_le {s : State} {a : Word} (h : s.Legal a) :
    (a.toNat < s.mainSize ∧ a.toNat ≤ s.mainSize - 4) ∨
      (s.mainSize ≤ a.toNat ∧ a.toNat - s.mainSize ≤ 4096 - 4) := by
  simp only [State.Legal, State.vbase, State.capacity, Config.videoSize] at h
  omega

/-- Settles O15: the check's two outcomes, and the legality of every access that goes through. -/
theorem instanceRangeCheck : Obligations.InstanceRangeCheck := by
  refine ⟨fun cap o a hcap => ⟨?passes, fun ho => Memory.check_eq_error (by omega), by omega⟩,
    fun s a _ haccess => ?access⟩
  case passes => rw [Memory.check_eq_ok]; omega
  case access =>
    have hlegal : s.Legal a := by
      obtain ⟨w, hread⟩ | ⟨v, t, hwrite⟩ := haccess
      · exact State.legal_of_memRead hread
      · exact State.legal_of_memWrite hwrite
    exact hlegal.offset_le

end Sys2Proof.Machine
end

