-- ==== Sys2Proof/Proofs/DecoderFields.lean ====
section
/-! PROOF. The fields the decoder delivers (30_encoding.md R72, R73, R81): where in the word they stand, and which
class has an immediate. -/

namespace Sys2Proof

/-! ## Register fields -/

/-- Five bits taken out of a word at an offset are the word shifted right by it, with the low five bits kept. -/
theorem setWidth_extractLsb'_five (w : Word) (n : Nat) :
    (w.extractLsb' n 5).setWidth 32 = (w >>> n) &&& 0x1F#32 := by
  apply BitVec.eq_of_toNat_eq
  have hlow : w.toNat >>> n % 2 ^ 5 < 2 ^ 32 := (Nat.mod_lt _ (by decide)).trans (by decide)
  calc ((w.extractLsb' n 5).setWidth 32).toNat
      = w.toNat >>> n % 2 ^ 5 := by
        rw [BitVec.toNat_setWidth, BitVec.extractLsb'_toNat, Nat.mod_eq_of_lt hlow]
    _ = ((w >>> n) &&& 0x1F#32).toNat := by
        rw [BitVec.toNat_and, BitVec.toNat_ushiftRight]
        exact (Nat.and_two_pow_sub_one_eq_mod _ 5).symm

/-- A five-bit field names a register 0 to 31. -/
theorem Field5.toNat_le (f : Field5) : f.toNat ≤ 31 := Nat.le_of_lt_succ f.isLt

/-- Settles O6: the three fields are the general fact at the offsets 5, 10 and 15. -/
theorem registerFieldsAreShiftedAndMasked : Obligations.RegisterFieldsAreShiftedAndMasked := fun w =>
  ⟨setWidth_extractLsb'_five w 5, setWidth_extractLsb'_five w 10, setWidth_extractLsb'_five w 15,
    Field5.toNat_le _, Field5.toNat_le _, Field5.toNat_le _⟩

/-! ## The immediate -/

/-- The immediate slot holds the word's top bit as its own. -/
theorem msb_immSlot (w : Word) : (immSlot w).msb = w.msb := by
  simp [immSlot, BitVec.msb_eq_getLsbD_last]

/-- The immediate slot reaches to the top of the word, so sign-extending it is the arithmetic shift (R73). -/
theorem immField_eq_sshiftRight (w : Word) : immField w = w.sshiftRight 10 := by
  ext i hi
  rw [immField, BitVec.getElem_signExtend, BitVec.getElem_sshiftRight, msb_immSlot]
  by_cases hslot : i < 22
  · rw [dif_pos hslot, dif_pos (by omega)]
    simp [immSlot, BitVec.getLsbD_eq_getElem (show 10 + i < 32 by omega)]
  · rw [dif_neg hslot, dif_neg (by omega)]

/-- Sign extension keeps the value of the slot. -/
theorem toInt_immField (w : Word) : (immField w).toInt = (immSlot w).toInt :=
  BitVec.toInt_signExtend_of_le (by decide)

/-- The immediate's range is that of a signed 22-bit number. -/
theorem immField_range (w : Word) : -2097152 ≤ (immField w).toInt ∧ (immField w).toInt ≤ 2097151 := by
  rw [toInt_immField]
  exact ⟨BitVec.le_toInt _, Int.le_of_lt_add_one BitVec.toInt_lt⟩

/-- The immediate's sign is the word's top bit. -/
theorem msb_immField (w : Word) : (immField w).msb = w.msb := by
  rw [immField_eq_sshiftRight, BitVec.msb_sshiftRight]

end Sys2Proof

namespace Sys2Proof.Machine

/-! ## The decoder's immediate output -/

@[simp] theorem decoderFields_opcode (o : Opcode) (w : Word) : (decoderFields o w).opcode = o := by
  cases o <;> rfl

/-- A decoder answer is the fields of the opcode it names. -/
theorem eq_decoderFields_of_decoder {w : Word} {out : DecoderOut} (h : decoder w = .ok out) :
    out = decoderFields out.opcode w := by
  unfold decoder at h
  split at h
  · cases h
  · cases h
    rw [decoderFields_opcode]

/-- The two opcodes of the register+immediate class, by the opcode table (R75), are the ones with an immediate. -/
theorem decoderFields_imm (o : Opcode) (w : Word) :
    (decoderFields o w).imm =
      if o = .addImmediate ∨ o = .subImmediate then .defined (immField w) else .undefined := by
  cases o <;> rfl

/-- Settles O7: the slot's sign extension, and the immediate output opcode by opcode. -/
theorem immediateIsTheWordShiftedArithmetically : Obligations.ImmediateIsTheWordShiftedArithmetically := by
  refine ⟨fun w => ?value, fun w out h => ?output⟩
  case value =>
    obtain ⟨hlow, hhigh⟩ := immField_range w
    exact ⟨immField_eq_sshiftRight w, toInt_immField w, hlow, hhigh, msb_immField w⟩
  case output =>
    have himm : out.imm = (decoderFields out.opcode w).imm :=
      congrArg DecoderOut.imm (eq_decoderFields_of_decoder h)
    exact himm.trans (decoderFields_imm out.opcode w)

end Sys2Proof.Machine
end

