-- ==== Sys2Proof/Proofs/ControlUnit.lean ====
section
/-! PROOF. The control unit stage by stage (40_control_unit.md R103 to R107): what each stage answers, what a tick of a
running machine can do, and that an instruction's step is its ticks. -/

namespace Sys2Proof.Machine

variable {s t : State}

/-- A computation that answers went through its first part. -/
theorem exists_of_bind_eq_ok {α β : Type} {m : Except Fault α} {f : α → Except Fault β} {b : β}
    (h : (m >>= f) = .ok b) : ∃ a, m = .ok a ∧ f a = .ok b := by
  cases m with
  | error e => cases h
  | ok a => exact ⟨a, rfl, h⟩

/-! ## Decode (R105) -/

/-- What a Decode tick leaves: the fields of the latched word's class in the scratch registers and read latches. -/
def State.afterDecode (s : State) (o : Opcode) : State :=
  match o.cls with
  | .threeReg =>
    { s.latchOpcode o with
      destReg := fieldDest s.memOut, rfOut1 := s.reg (fieldA s.memOut).toNat, rfOut2 := s.reg (fieldB s.memOut).toNat }
  | .regImm =>
    { s.latchOpcode o with
      destReg := fieldA s.memOut, rfOut1 := s.reg (fieldA s.memOut).toNat, rfOut2 := 0, imm := immField s.memOut }
  | .oneReg => { s.latchOpcode o with rfOut1 := s.reg (fieldA s.memOut).toNat, rfOut2 := 0 }
  | .noOperand => s.latchOpcode o
  | .loadForm =>
    { s.latchOpcode o with
      destReg := fieldDest s.memOut, rfOut1 := s.reg (fieldA s.memOut).toNat, rfOut2 := 0 }
  | .storeForm =>
    { s.latchOpcode o with
      rfOut1 := s.reg (fieldA s.memOut).toNat, rfOut2 := s.reg (fieldB s.memOut).toNat }

@[simp] theorem State.afterDecode_x (o : Opcode) : (s.afterDecode o).x = s.x := by cases o <;> rfl
@[simp] theorem State.afterDecode_cuState (o : Opcode) : (s.afterDecode o).cuState = .execute := by cases o <;> rfl
@[simp] theorem State.afterDecode_opLatch (o : Opcode) : (s.afterDecode o).opLatch = o.code := by cases o <;> rfl
@[simp] theorem State.afterDecode_halted (o : Opcode) : (s.afterDecode o).halted = s.halted := by cases o <;> rfl
@[simp] theorem State.afterDecode_fault (o : Opcode) : (s.afterDecode o).fault = s.fault := by cases o <;> rfl

/-- Latching the index a field holds latches the field. -/
@[simp] theorem regField_toNat_field (f : Field5) : regField f.toNat = f := by simp [regField]

section LatchedForms
variable {o : Opcode}

theorem latchThreeReg_eq_afterDecode (h : o.cls = .threeReg) :
    latchThreeReg o (fieldDest s.memOut).toNat (fieldA s.memOut).toNat (fieldB s.memOut).toNat s =
      .ok (s.afterDecode o) := by
  rw [latchThreeReg_of_lt o (BitVec.isLt _) (BitVec.isLt _) (BitVec.isLt _), regField_toNat_field, State.afterDecode, h]

theorem latchRegImm_eq_afterDecode (h : o.cls = .regImm) :
    latchRegImm o (fieldA s.memOut).toNat (immField s.memOut) s = .ok (s.afterDecode o) := by
  rw [latchRegImm_of_lt o _ (BitVec.isLt _), regField_toNat_field, State.afterDecode, h]

theorem latchOneReg_eq_afterDecode (h : o.cls = .oneReg) :
    latchOneReg o (fieldA s.memOut).toNat s = .ok (s.afterDecode o) := by
  rw [latchOneReg_of_lt o (BitVec.isLt _), State.afterDecode, h]

theorem latchNoOperand_eq_afterDecode (h : o.cls = .noOperand) : latchNoOperand o s = .ok (s.afterDecode o) := by
  rw [latchNoOperand, State.afterDecode, h]

theorem latchLoad_eq_afterDecode (h : o.cls = .loadForm) :
    latchLoad o (fieldDest s.memOut).toNat (fieldA s.memOut).toNat s = .ok (s.afterDecode o) := by
  rw [latchLoad_of_lt o (BitVec.isLt _) (BitVec.isLt _), regField_toNat_field, State.afterDecode, h]

theorem latchStore_eq_afterDecode (h : o.cls = .storeForm) :
    latchStore o (fieldA s.memOut).toNat (fieldB s.memOut).toNat s = .ok (s.afterDecode o) := by
  rw [latchStore_of_lt o (BitVec.isLt _) (BitVec.isLt _), State.afterDecode, h]

end LatchedForms

/-- Decode of an assigned opcode answers, in every state. -/
theorem decodeStage_of_assigned {o : Opcode} (h : Opcode.ofCode (opcodeField s.memOut) = some o) :
    decodeStage s = .ok (s.afterDecode o) := by
  simp only [decodeStage, decoder, h, bind, Except.bind, decoderFields_opcode]
  cases hcls : o.cls with
  | threeReg => simpa [decoderFields, hcls, Signal.get] using latchThreeReg_eq_afterDecode hcls
  | regImm => simpa [decoderFields, hcls, Signal.get] using latchRegImm_eq_afterDecode hcls
  | oneReg => simpa [decoderFields, hcls, Signal.get] using latchOneReg_eq_afterDecode hcls
  | noOperand => simpa using latchNoOperand_eq_afterDecode hcls
  | loadForm => simpa [decoderFields, hcls, Signal.get] using latchLoad_eq_afterDecode hcls
  | storeForm => simpa [decoderFields, hcls, Signal.get] using latchStore_eq_afterDecode hcls

/-- Decode of an unassigned opcode is fatal. -/
theorem decodeStage_of_unassigned (h : Opcode.ofCode (opcodeField s.memOut) = none) :
    decodeStage s = .error (.badOpcode (opcodeField s.memOut)) := by
  simp [decodeStage, decoder, h, bind, Except.bind]

/-! ## Execute (R106) -/

/-- Execute runs the opcode that is latched. -/
theorem executeStage_of_code {o : Opcode} (h : s.opLatch = o.code) : executeStage s = executeOpcode o s := by
  rw [executeStage, h, Opcode.ofCode_code]

/-- Execute answers only for an assigned opcode. -/
theorem exists_opcode_of_executeStage (h : executeStage s = .ok t) :
    ∃ o : Opcode, s.opLatch = o.code ∧ executeOpcode o s = .ok t := by
  unfold executeStage at h
  split at h
  · cases h
  · next o ho => exact ⟨o, (Opcode.code_of_ofCode ho).symm, h⟩

/-- What every Execute tick that answers leaves: the registers and the opcode as they were, the next stage by R103, and
the halted flag driven by `halt` alone. -/
structure ExecuteOutcome (o : Opcode) (s t : State) : Prop where
  x : t.x = s.x
  opLatch : t.opLatch = s.opLatch
  cuState : t.cuState = if o.writesBack then .write else .fetch
  halted : o ≠ .halt → t.halted = s.halted
  fault : t.fault = s.fault

/-- A memory write leaves the registers, the latched opcode and the condition of the machine. -/
theorem State.memWrite_keeps {a v : Word} (h : s.memWrite a v = .ok t) :
    t.x = s.x ∧ t.opLatch = s.opLatch ∧ t.halted = s.halted ∧ t.fault = s.fault := by
  obtain ⟨-, rfl⟩ | ⟨-, -, rfl⟩ := State.memWrite_cases h <;> exact ⟨rfl, rfl, rfl, rfl⟩

/-- One case per opcode of the Execute table: what it commits is a record update that leaves the rest. -/
theorem executeOutcome {o : Opcode} (h : executeOpcode o s = .ok t) : ExecuteOutcome o s t := by
  cases o with
  | nop | addImmediate | subImmediate | add | sub | nand | lshift | jumpToReg | displayFlush =>
    cases h
    exact ⟨rfl, rfl, rfl, fun _ => rfl, rfl⟩
  | halt =>
    cases h
    exact ⟨rfl, rfl, rfl, fun hne => absurd rfl hne, rfl⟩
  | branchIfZero | branchIfPositive =>
    obtain ⟨taken, -, hbranch⟩ := exists_of_bind_eq_ok h
    cases hbranch
    exact ⟨rfl, rfl, rfl, fun _ => rfl, rfl⟩
  | load =>
    obtain ⟨a, -, hload⟩ := exists_of_bind_eq_ok h
    obtain ⟨w, -, hlatch⟩ := exists_of_bind_eq_ok hload
    cases hlatch
    exact ⟨rfl, rfl, rfl, fun _ => rfl, rfl⟩
  | store =>
    obtain ⟨a, -, hstore⟩ := exists_of_bind_eq_ok h
    obtain ⟨m, hmem, hmove⟩ := exists_of_bind_eq_ok hstore
    obtain ⟨hx, hop, hhalted, hfault⟩ := State.memWrite_keeps hmem
    cases hmove
    exact ⟨hx, hop, rfl, fun _ => hhalted, hfault⟩

/-- Where Execute goes, by the opcode's value (R103). -/
theorem ExecuteOutcome.cuState_cases {o : Opcode} (hout : ExecuteOutcome o s t) (hop : s.opLatch = o.code) :
    (s.opLatch ∈ [1, 2, 3, 4, 5, 6, 14] ∧ t.cuState = .write) ∨
      (s.opLatch ∈ [0, 7, 9, 10, 15, 16, 17] ∧ t.cuState = .fetch) := by
  rw [hop, hout.cuState]
  cases o <;> decide

/-! ## Write (R107) -/

/-- The Write stage of an arithmetic opcode commits the ALU result. -/
theorem writeStage_of_arithmetic (h : s.opLatch ∈ Claims.arithmetic) : writeStage s = s.writeBack s.aluResult := by
  simp only [Claims.arithmetic, List.mem_cons, List.not_mem_nil, or_false] at h
  rcases h with h | h | h | h | h | h <;> rw [writeStage, h] <;> rfl

/-- The Write stage of `load` commits the memory output latch. -/
theorem writeStage_of_load (h : s.opLatch = 14) : writeStage s = s.writeBack s.memOut := by
  rw [writeStage, h]; rfl

/-- The Write stage of any other opcode value is fatal. -/
theorem writeStage_of_other (harith : s.opLatch ∉ Claims.arithmetic) (hload : s.opLatch ≠ 14) :
    writeStage s = .error (.writeNoWriteback s.opLatch) := by
  cases hof : Opcode.ofCode s.opLatch with
  | none => rw [writeStage, hof]
  | some o =>
    have hcode : s.opLatch = o.code := (Opcode.code_of_ofCode hof).symm
    rw [hcode] at harith hload
    cases o with
    | add | sub | nand | lshift | addImmediate | subImmediate => exact absurd (by decide) harith
    | load => exact absurd rfl hload
    | _ => rw [writeStage, hof]

/-- A Write stage that answers has committed one word to the latched destination. -/
theorem exists_writeBack_of_writeStage (h : writeStage s = .ok t) : ∃ v, s.writeBack v = .ok t := by
  by_cases harith : s.opLatch ∈ Claims.arithmetic
  · exact ⟨_, (writeStage_of_arithmetic harith).symm.trans h⟩
  · by_cases hload : s.opLatch = 14
    · exact ⟨_, (writeStage_of_load hload).symm.trans h⟩
    · rw [writeStage_of_other harith hload] at h
      cases h

/-- What the commit of a word to the latched destination leaves: the control unit at Fetch, the word in the register
(register 0 discards it), every other register alone. -/
theorem State.writeBack_registers {v : Word} (h : s.writeBack v = .ok t) :
    t.cuState = .fetch ∧ t.halted = s.halted ∧ (s.destReg ≠ 0 → t.reg s.destReg.toNat = v) ∧
      SameRegsExcept s.destReg.toNat s t ∧ t.reg 0 = 0 := by
  rw [State.writeBack_eq] at h
  cases h
  have hreg : ∀ j, RegFile.value (RegFile.put s.x s.destReg.toNat v) j =
      if j = s.destReg.toNat ∧ s.destReg.toNat ≠ 0 then v else RegFile.value s.x j :=
    fun j => RegFile.value_put s.x j v s.destReg.isLt
  refine ⟨rfl, rfl, fun hdest => ?written, fun r _ hr => ?others, rfl⟩
  case written =>
    have hne : s.destReg.toNat ≠ 0 := fun h0 => hdest (BitVec.eq_of_toNat_eq h0)
    exact (hreg _).trans (if_pos ⟨rfl, hne⟩)
  case others => exact (hreg r).trans (if_neg fun hr' => hr hr'.1)

/-! ## One tick -/

/-- Everything a stage that answers can have done (R103 to R107). -/
theorem runStage_cases (h : runStage s = .ok t) :
    (s.cuState = .fetch ∧ ∃ w, s.memRead s.pc = .ok w ∧ t = s.afterFetch w) ∨
    (s.cuState = .decode ∧ ∃ o, Opcode.ofCode (opcodeField s.memOut) = some o ∧ t = s.afterDecode o) ∨
    (s.cuState = .execute ∧ ∃ o : Opcode, s.opLatch = o.code ∧ executeOpcode o s = .ok t) ∨
    (s.cuState = .write ∧ writeStage s = .ok t) := by
  cases hstage : s.cuState with
  | fetch =>
    rw [runStage, hstage] at h
    obtain ⟨a, haddr, hread⟩ := exists_of_bind_eq_ok h
    obtain ⟨w, hword, hlatch⟩ := exists_of_bind_eq_ok hread
    rw [memoryAddress_fetch hstage] at haddr
    cases haddr
    cases hlatch
    exact .inl ⟨rfl, w, hword, rfl⟩
  | decode =>
    rw [runStage, hstage] at h
    cases hof : Opcode.ofCode (opcodeField s.memOut) with
    | none => cases (decodeStage_of_unassigned hof).symm.trans h
    | some o =>
      cases (decodeStage_of_assigned hof).symm.trans h
      exact .inr (.inl ⟨rfl, o, rfl, rfl⟩)
  | execute =>
    rw [runStage, hstage] at h
    exact .inr (.inr (.inl ⟨rfl, exists_opcode_of_executeStage h⟩))
  | write =>
    rw [runStage, hstage] at h
    exact .inr (.inr (.inr ⟨rfl, h⟩))

/-- A tick of a running machine whose stage answers. -/
theorem tick_of_ok (hhalted : s.halted = false) (hfault : s.fault = none) (h : runStage s = .ok t) :
    tick s = (t, .returned t.halted) := by
  simp [tick, hhalted, hfault, h]

/-- A tick of a running machine whose stage is fatal. -/
theorem tick_of_error {f : Fault} (hhalted : s.halted = false) (hfault : s.fault = none)
    (h : runStage s = .error f) : tick s = (s.raiseFatal f, .fatal f) := by
  simp [tick, hhalted, hfault, h]

/-- A tick of a running machine that returns has run its stage. -/
theorem runStage_of_tick_returned {b : Bool} (hhalted : s.halted = false) (hfault : s.fault = none)
    (h : tick s = (t, .returned b)) : runStage s = .ok t := by
  cases hrun : runStage s with
  | error f => rw [tick_of_error hhalted hfault hrun] at h; cases h
  | ok u => rw [tick_of_ok hhalted hfault hrun] at h; cases h; rfl

/-- Everything a tick can leave: the state it began with, the recorded error, or what its stage answered. -/
theorem tick_fst_cases (s : State) :
    (tick s).1 = s ∨ (∃ f, (tick s).1 = s.raiseFatal f) ∨ runStage s = .ok (tick s).1 := by
  cases hfault : s.fault with
  | some f => exact .inl (by simp [tick, hfault])
  | none =>
    cases hhalted : s.halted with
    | true => exact .inl (by simp [tick, hfault, hhalted])
    | false =>
      cases hrun : runStage s with
      | error f => exact .inr (.inl ⟨f, by rw [tick_of_error hhalted hfault hrun]⟩)
      | ok t => exact .inr (.inr (by rw [tick_of_ok hhalted hfault hrun]))

/-! ## Who writes the register file (R107) -/

/-- A Write tick that commits a word returns, with the effect of the commit. -/
theorem tick_of_writeStage {v : Word} (hstage : s.cuState = .write) (hhalted : s.halted = false)
    (hfault : s.fault = none) (h : writeStage s = s.writeBack v) :
    ∃ t, tick s = (t, .returned false) ∧ t.cuState = .fetch ∧ (s.destReg ≠ 0 → t.reg s.destReg.toNat = v) ∧
      SameRegsExcept s.destReg.toNat s t ∧ t.reg 0 = 0 := by
  obtain ⟨t, hcommit⟩ : ∃ t, s.writeBack v = .ok t := ⟨_, State.writeBack_eq s v⟩
  obtain ⟨hfetch, hkept, hregs⟩ := State.writeBack_registers hcommit
  have hrun : runStage s = .ok t := by rw [runStage, hstage]; exact h.trans hcommit
  exact ⟨t, by rw [tick_of_ok hhalted hfault hrun, hkept, hhalted], hfetch, hregs⟩

/-- A tick that arrives at Write was the Execute tick of a write-back opcode. -/
theorem opLatch_of_tick_to_write (hstage : s.cuState ≠ .write) (hwrite : (tick s).1.cuState = .write) :
    (tick s).1.opLatch ∈ Claims.arithmetic ∨ (tick s).1.opLatch = 14 := by
  obtain hsame | ⟨f, hfatal⟩ | hrun := tick_fst_cases s
  · exact absurd (hsame ▸ hwrite) hstage
  · exact absurd (by simpa [hfatal] using hwrite) hstage
  · obtain ⟨-, w, -, hfetch⟩ | ⟨-, o, -, hdecode⟩ | ⟨-, o, hop, hexec⟩ | ⟨hin, -⟩ := runStage_cases hrun
    · simp [hfetch] at hwrite
    · simp [hdecode] at hwrite
    · have hout := executeOutcome hexec
      obtain ⟨hback, -⟩ | ⟨-, hfetch⟩ := hout.cuState_cases hop
      · rw [hout.opLatch]
        simpa [Claims.arithmetic, or_assoc] using hback
      · rw [hfetch] at hwrite
        cases hwrite
    · exact absurd hin hstage

/-- A tick that does not begin in Write leaves the register file. -/
theorem tick_x_of_ne_write (hstage : s.cuState ≠ .write) : (tick s).1.x = s.x := by
  obtain hsame | ⟨f, hfatal⟩ | hrun := tick_fst_cases s
  · rw [hsame]
  · rw [hfatal, State.raiseFatal_x]
  · obtain ⟨-, w, -, hfetch⟩ | ⟨-, o, -, hdecode⟩ | ⟨-, o, -, hexec⟩ | ⟨hin, -⟩ := runStage_cases hrun
    · rw [hfetch, State.afterFetch_x]
    · rw [hdecode, State.afterDecode_x]
    · exact (executeOutcome hexec).x
    · exact absurd hin hstage

/-! ## An instruction is its ticks -/

/-- The rest of an instruction at Execute: its Execute, and its Write exactly if the opcode writes back (R103). -/
theorem finishExecute_of_code {o : Opcode} (h : s.opLatch = o.code) :
    finishExecute s = executeOpcode o s >>= fun t => if o.writesBack then writeStage t else .ok t := by
  rw [finishExecute, executeStage_of_code h]
  cases hexec : executeOpcode o s with
  | error f => rfl
  | ok t =>
    have hnext := (executeOutcome hexec).cuState
    cases hwb : o.writesBack <;> simp [bind, Except.bind, hnext, hwb]

/-- An opcode without write-back ends with its Execute. -/
theorem finishExecute_of_no_writeBack {o : Opcode} (h : s.opLatch = o.code) (hwb : o.writesBack = false) :
    finishExecute s = executeOpcode o s := by
  rw [finishExecute_of_code h, hwb]
  exact bind_pure _

/-- A 3-register instruction is its Decode latches, its ALU operation and its Write stage. -/
theorem runThreeReg_eq_writeStage {o : Opcode} (f : AluOp) (h : o.cls = .threeReg) :
    runThreeReg o f (fieldDest s.memOut).toNat (fieldA s.memOut).toNat (fieldB s.memOut).toNat s =
      writeStage (executeAlu f (s.afterDecode o).rfOut1 (s.afterDecode o).rfOut2 (s.afterDecode o)) := by
  have harith : o.code ∈ Claims.arithmetic := by revert h; cases o <;> decide
  rw [runThreeReg, latchThreeReg_eq_afterDecode h, writeStage_of_arithmetic ?latched]
  · rfl
  case latched => exact (State.afterDecode_opLatch (s := s) o).symm ▸ harith

/-- A register+immediate instruction is its Decode latches, its ALU operation and its Write stage. -/
theorem runRegImm_eq_writeStage {o : Opcode} (f : AluOp) (h : o.cls = .regImm) :
    runRegImm o f (fieldA s.memOut).toNat (immSlot s.memOut).toInt s =
      writeStage (executeAlu f (s.afterDecode o).rfOut1 (s.afterDecode o).imm (s.afterDecode o)) := by
  have harith : o.code ∈ Claims.arithmetic := by revert h; cases o <;> decide
  have himm : BitVec.ofInt 32 (immSlot s.memOut).toInt = immField s.memOut := rfl
  rw [runRegImm, himm, latchRegImm_eq_afterDecode h, writeStage_of_arithmetic ?latched]
  · rfl
  case latched => exact (State.afterDecode_opLatch (s := s) o).symm ▸ harith

/-- A jump or branch is its Decode latches and its Execute. -/
theorem latchOneReg_executeOpcode_eq {o : Opcode} (h : o.cls = .oneReg) :
    (latchOneReg o (fieldA s.memOut).toNat s >>= executeOpcode o) = finishExecute (s.afterDecode o) := by
  have hwb : o.writesBack = false := by revert h; cases o <;> decide
  rw [latchOneReg_eq_afterDecode h, finishExecute_of_no_writeBack (State.afterDecode_opLatch o) hwb]
  rfl

/-- The address of a load or store after its Decode tick is the first read latch. -/
theorem memoryAddress_afterDecode {o : Opcode} (h : o = .load ∨ o = .store) :
    memoryAddress (s.afterDecode o) = .ok (s.afterDecode o).rfOut1 := by
  refine memoryAddress_execute (State.afterDecode_cuState o) ?_
  rw [State.afterDecode_opLatch]
  exact h.imp (congrArg _) (congrArg _)

/-- `load` is its Decode latches, its memory read and its Write stage. -/
theorem execLoad_eq_finishExecute :
    execLoad (fieldDest s.memOut).toNat (fieldA s.memOut).toNat s = settle (finishExecute (s.afterDecode .load)) := by
  rw [finishExecute_of_code (State.afterDecode_opLatch .load), executeOpcode, memoryAddress_afterDecode (.inl rfl),
    execLoad, latchLoad_eq_afterDecode rfl]
  change settle (executeLoad (s.afterDecode .load).rfOut1 (s.afterDecode .load) >>= writeMemOut) =
    settle (executeLoad (s.afterDecode .load).rfOut1 (s.afterDecode .load) >>= writeStage)
  cases hread : executeLoad (s.afterDecode .load).rfOut1 (s.afterDecode .load) with
  | error f => rfl
  | ok t =>
    have hlatched : t.opLatch = 14 := by
      obtain ⟨w, -, hlatch⟩ := exists_of_bind_eq_ok hread
      cases hlatch
      rfl
    exact congrArg settle (writeStage_of_load hlatched).symm

/-- `store` is its Decode latches and its memory write. -/
theorem execStore_eq_finishExecute :
    execStore (fieldA s.memOut).toNat (fieldB s.memOut).toNat s = settle (finishExecute (s.afterDecode .store)) := by
  rw [finishExecute_of_no_writeBack (State.afterDecode_opLatch .store) rfl, executeOpcode,
    memoryAddress_afterDecode (.inr rfl), execStore, latchStore_eq_afterDecode rfl]
  rfl

/-- An instruction's meaning on a latched word is its Decode latches followed by the rest of the tick machine. -/
theorem exec_withFields (o : Opcode) (s : State) :
    exec (o.withFields s.memOut) s = settle (finishExecute (s.afterDecode o)) := by
  cases o with
  | load => exact execLoad_eq_finishExecute
  | store => exact execStore_eq_finishExecute
  | nop | displayFlush | halt => rfl
  | add | sub | nand | lshift =>
    rw [finishExecute_of_code (State.afterDecode_opLatch _)]
    exact congrArg settle (runThreeReg_eq_writeStage _ rfl)
  | addImmediate | subImmediate =>
    rw [finishExecute_of_code (State.afterDecode_opLatch _)]
    exact congrArg settle (runRegImm_eq_writeStage _ rfl)
  | jumpToReg | branchIfZero | branchIfPositive => exact congrArg settle (latchOneReg_executeOpcode_eq rfl)

/-! ## The ticks of an instruction (R103) -/

theorem Opcode.opcode_withFields (o : Opcode) (w : Word) : (o.withFields w).opcode = o := by cases o <;> rfl

/-- The table's ticks are four for the opcodes that R103 sends to Write and three for the others. -/
theorem Opcode.ticks_eq (o : Opcode) : o.ticks = if o.code ∈ [1, 2, 3, 4, 5, 6, 14] then 4 else 3 := by
  cases o <;> rfl

/-- Ticks in a row. -/
theorem tickN_add (m k : Nat) (s : State) : tickN (m + k) s = tickN k (tickN m s) := by
  induction m generalizing s with
  | zero => rw [Nat.zero_add]; rfl
  | succ m ih => rw [Nat.succ_add]; exact ih _

/-- The state after a tick of a running machine whose stage answers. -/
theorem tickN_one_of_ok (hhalted : s.halted = false) (hfault : s.fault = none) (h : runStage s = .ok t) :
    tickN 1 s = t := congrArg Prod.fst (tick_of_ok hhalted hfault h)

/-- A fetch that names an instruction reads a word that decodes to it. -/
theorem State.Fetches.exists_word {i : Instr} (h : s.Fetches i) :
    ∃ w, s.memRead s.pc = .ok w ∧ decodeWord w = some i := by
  obtain ⟨w, hread, hword⟩ := Option.bind_eq_some_iff.mp h
  cases hmem : s.memRead s.pc with
  | error f => rw [hmem] at hread; cases hread
  | ok v => rw [hmem] at hread; cases hread; exact ⟨w, rfl, hword⟩

/-- The step of a machine about to fetch an instruction is what is left to do after its Fetch and Decode ticks. -/
theorem step_of_fetches {i : Instr} (hready : s.Ready) (hfetches : s.Fetches i) :
    ∃ w, tickN 1 s = s.afterFetch w ∧ tickN 2 s = (s.afterFetch w).afterDecode i.opcode ∧
      step s = settle (finishExecute ((s.afterFetch w).afterDecode i.opcode)) := by
  obtain ⟨hstage, hhalted, hfault⟩ := hready
  obtain ⟨w, hread, hword⟩ := hfetches.exists_word
  obtain ⟨o, hcode, rfl⟩ : ∃ o, Opcode.ofCode (opcodeField w) = some o ∧ o.withFields w = i :=
    Option.map_eq_some_iff.mp hword
  rw [Opcode.opcode_withFields]
  have hfetch : fetchStage s = .ok (s.afterFetch w) := by rw [fetchStage_eq hstage, hread]; rfl
  have htick1 : tickN 1 s = s.afterFetch w :=
    tickN_one_of_ok hhalted hfault (by rw [runStage, hstage]; exact hfetch)
  have htick2 : tickN 1 (s.afterFetch w) = (s.afterFetch w).afterDecode o :=
    tickN_one_of_ok hhalted hfault (decodeStage_of_assigned hcode)
  have hlatched : latchedInstr (s.afterFetch w) = .ok (o.withFields w) := by
    rw [latchedInstr, State.afterFetch_memOut, hword]
  refine ⟨w, htick1, by rw [tickN_add 1 1, htick1, htick2], ?step⟩
  calc step s = exec (o.withFields w) (s.afterFetch w) := by simp [step, hfault, hhalted, hstage, hfetch, hlatched]
    _ = settle (finishExecute ((s.afterFetch w).afterDecode o)) := exec_withFields o (s.afterFetch w)

section FromExecute
variable {o : Opcode} (hstage : s.cuState = .execute) (hop : s.opLatch = o.code) (hhalted : s.halted = false)
  (hfault : s.fault = none)
include hstage hop hhalted hfault

/-- An Execute that answers is one tick. -/
theorem tickN_one_of_executeOpcode (h : executeOpcode o s = .ok t) : tickN 1 s = t := by
  refine tickN_one_of_ok hhalted hfault ?_
  rw [runStage, hstage]
  exact (executeStage_of_code hop).trans h

/-- From Execute, an opcode without write-back is back at Fetch after one tick. -/
theorem ticks_of_no_writeBack (hwb : o.writesBack = false) (h : finishExecute s = .ok t) :
    tickN 1 s = t ∧ t.cuState = .fetch := by
  rw [finishExecute_of_no_writeBack hop hwb] at h
  have hnext := (executeOutcome h).cuState
  rw [hwb] at hnext
  exact ⟨tickN_one_of_executeOpcode hstage hop hhalted hfault h, hnext⟩

/-- From Execute, a write-back opcode is at Write after one tick and back at Fetch after two. -/
theorem ticks_of_writeBack (hwb : o.writesBack = true) (h : finishExecute s = .ok t) :
    (tickN 1 s).cuState = .write ∧ tickN 2 s = t ∧ t.cuState = .fetch := by
  rw [finishExecute_of_code hop, hwb] at h
  obtain ⟨u, hexec, hwrite⟩ := exists_of_bind_eq_ok h
  have hout := executeOutcome hexec
  have hnext : u.cuState = .write := by rw [hout.cuState, hwb]; rfl
  have hhalt : o ≠ .halt := by rintro rfl; cases hwb
  have htick1 : tickN 1 s = u := tickN_one_of_executeOpcode hstage hop hhalted hfault hexec
  have hrun : runStage u = .ok t := by rw [runStage, hnext]; exact hwrite
  have htick2 : tickN 1 u = t := tickN_one_of_ok ((hout.halted hhalt).trans hhalted) (hout.fault.trans hfault) hrun
  obtain ⟨v, hcommit⟩ := exists_writeBack_of_writeStage hwrite
  exact ⟨htick1 ▸ hnext, by rw [tickN_add 1 1, htick1, htick2], (State.writeBack_registers hcommit).1⟩

end FromExecute

/-- A step of a machine about to fetch an instruction is the ticks of its opcode's row, and no fewer reach Fetch. -/
theorem takesTicks (i : Instr) : Claims.TakesTicks i i.opcode.ticks := by
  intro s t hready hfetches hstep
  obtain ⟨w, htick1, htick2, hrest⟩ := step_of_fetches hready hfetches
  obtain ⟨-, hhalted, hfault⟩ := hready
  rw [hrest, settle_eq_next] at hstep
  have hdecode : (tickN 1 s).cuState ≠ .fetch := by simp [htick1]
  have hexecute : (tickN 2 s).cuState ≠ .fetch := by simp [htick2]
  have hhalted2 : ((s.afterFetch w).afterDecode i.opcode).halted = false := by simpa using hhalted
  have hfault2 : ((s.afterFetch w).afterDecode i.opcode).fault = none := by simpa using hfault
  cases hwb : i.opcode.writesBack with
  | false =>
    obtain ⟨htick3, hback⟩ := ticks_of_no_writeBack (State.afterDecode_cuState _) (State.afterDecode_opLatch _)
      hhalted2 hfault2 hwb hstep
    have hn : i.opcode.ticks = 2 + 1 := by rw [Opcode.ticks, hwb]; rfl
    refine ⟨by rw [hn, tickN_add, htick2, htick3], hback, fun k hpos hlt => ?_⟩
    obtain rfl | rfl : k = 1 ∨ k = 2 := by omega
    · exact hdecode
    · exact hexecute
  | true =>
    obtain ⟨hwrite, htick4, hback⟩ := ticks_of_writeBack (State.afterDecode_cuState _) (State.afterDecode_opLatch _)
      hhalted2 hfault2 hwb hstep
    have hn : i.opcode.ticks = 2 + 2 := by rw [Opcode.ticks, hwb]; rfl
    refine ⟨by rw [hn, tickN_add, htick2, htick4], hback, fun k hpos hlt => ?_⟩
    obtain rfl | rfl | rfl : k = 1 ∨ k = 2 ∨ k = 3 := by omega
    · exact hdecode
    · exact hexecute
    · simp [tickN_add 2 1, htick2, hwrite]

end Sys2Proof.Machine

namespace Sys2Proof.ControlUnit

open Sys2Proof.Machine

/-- Settles O38: the two sources of the commit, the fatal case, and what the ticks of the other stages can do. -/
theorem writeStage : Obligations.WriteStage := by
  refine ⟨fun s hstage hhalted hfault => ⟨fun harith => ?arith, fun hload => ?load, fun harith hload => ?other⟩,
    fun s => opLatch_of_tick_to_write, fun s hstage r _ => ?frame⟩
  case arith => exact tick_of_writeStage hstage hhalted hfault (writeStage_of_arithmetic harith)
  case load => exact tick_of_writeStage hstage hhalted hfault (writeStage_of_load hload)
  case other =>
    have hrun : runStage s = .error (.writeNoWriteback s.opLatch) := by
      rw [runStage, hstage]; exact writeStage_of_other harith hload
    rw [tick_of_error hhalted hfault hrun]
  case frame => rw [State.reg_congr (tick_x_of_ne_write hstage)]

/-- Settles O37: the next stage from what each stage can do, and the ticks of each instruction. -/
theorem stageTransitions : Obligations.StageTransitions := by
  refine ⟨fun s t b hhalted hfault htick => ?_, fun i => Opcode.ticks_eq i.opcode ▸ takesTicks i⟩
  obtain ⟨hstage, w, -, rfl⟩ | ⟨hstage, o, -, rfl⟩ | ⟨hstage, o, hop, hexec⟩ | ⟨hstage, hwrite⟩ :=
    runStage_cases (runStage_of_tick_returned hhalted hfault htick)
  · simp [hstage]
  · simp [hstage]
  · simpa [hstage] using (executeOutcome hexec).cuState_cases hop
  · obtain ⟨v, hcommit⟩ := exists_writeBack_of_writeStage hwrite
    simpa [hstage] using (State.writeBack_registers hcommit).1

end Sys2Proof.ControlUnit
end

/-! PROOF. The 3-register arithmetic instructions (41_arithmetic.md R141, R143): what a write of a result and its flags
leaves, and from it the meaning of a form, stated once for every ALU operation. -/

namespace Sys2Proof

/-- A word with an assigned opcode decodes to that opcode's instruction over its fields (R75, R76). -/
theorem decodeWord_of_code {w : Word} {o : Opcode} (h : opcodeField w = o.code) :
    decodeWord w = some (o.withFields w) := by
  simp [decodeWord, h]

end Sys2Proof

namespace Sys2Proof.Machine

variable {s t : State} {d : Nat} {r : Word}

/-! ## Flags and registers after a result -/

theorem zeroFlag_eq_true : zeroFlag r = true ↔ r = 0 := decide_eq_true_iff

/-- A result is positive exactly if its bit 31 is clear (10_state.md R20). -/
theorem positiveFlag_eq_true : positiveFlag r = true ↔ r.msb = false := by
  simp [positiveFlag, BitVec.msb_eq_toInt]

/-- A latch loaded with the ALU's two outputs for a result holds the flags of that result. -/
theorem flagsOf_of_latched (hzero : t.zf = zeroFlag r) (hpositive : t.pf = positiveFlag r)
    (hvalid : t.flagsValid = true) : Claims.FlagsOf r t :=
  ⟨hzero ▸ zeroFlag_eq_true, hpositive ▸ positiveFlag_eq_true, hvalid⟩

/-- A register written reads the word, unless it is register 0. -/
theorem State.reg_of_put (hd : d < 32) (hx : t.x = RegFile.put s.x d r) (hne : d ≠ 0) : t.reg d = r := by
  rw [State.reg, hx, RegFile.value_put s.x d r hd, if_pos ⟨rfl, hne⟩]

/-- A register write leaves every other register. -/
theorem sameRegsExcept_of_put (hd : d < 32) (hx : t.x = RegFile.put s.x d r) : SameRegsExcept d s t := by
  intro j _ hj
  rw [State.reg, hx, RegFile.value_put s.x j r hd, if_neg fun h => hj h.1, State.reg]

/-! ## The 3-register form -/

/-- A 3-register instruction whose meaning is `runThreeReg` writes the ALU's result and its flags, and nothing else. -/
theorem threeRegResult_of_exec {mk : Nat → Nat → Nat → Instr} (o : Opcode) (f : AluOp)
    (hexec : ∀ d a b s, exec (mk d a b) s = settle (runThreeReg o f d a b s)) :
    Claims.ThreeRegResult mk (aluValue f) := by
  intro s d a b hd ha hb
  refine ⟨_, (hexec d a b s).trans (congrArg settle (runThreeReg_of_lt o f hd ha hb)), ?written, State.reg_zero _,
    flagsOf_of_latched rfl rfl rfl, rfl, rfl, ?others, ?memory, ⟨rfl, rfl⟩, rfl, rfl, rfl, rfl⟩
  case written => exact State.reg_of_put hd rfl
  case others => exact sameRegsExcept_of_put hd rfl
  case memory => exact congrFun (State.byteAt_congr rfl rfl rfl)

/-- Settles O19: the 3-register form with the ALU's sum. -/
theorem addInstruction : Obligations.AddInstruction :=
  ⟨fun _ hop => decodeWord_of_code (o := .add) hop, threeRegResult_of_exec .add .add fun _ _ _ _ => rfl,
    fun d a b => takesTicks (.add d a b), by decide⟩

/-- Settles O21: the 3-register form with the ALU's complemented conjunction. -/
theorem nandInstruction : Obligations.NandInstruction :=
  ⟨fun _ hop => decodeWord_of_code (o := .nand) hop, threeRegResult_of_exec .nand .nand fun _ _ _ _ => rfl,
    fun d a b => takesTicks (.nand d a b), by decide⟩

end Sys2Proof.Machine

/-! PROOF. The unconditional jump (42_control_transfer.md R150, R151): what its Execute stage leaves after the operand is
latched, and the frame of an instruction that only chooses the next `pc`. -/

namespace Sys2Proof.Machine

/-- Latching the opcode and the two operands, then choosing a `pc` and returning to Fetch, changes nothing else that a
program or the interface sees, whatever the operands and the `pc`. -/
theorem onlyPc_of_latchOpcode (s : State) (o : Opcode) (out1 out2 target : Word) :
    Claims.OnlyPc s { s.latchOpcode o with rfOut1 := out1, rfOut2 := out2, pc := target, cuState := .fetch } := by
  refine ⟨rfl, ?registers, ⟨rfl, rfl, rfl⟩, ?memory, ⟨rfl, rfl⟩, rfl, rfl, rfl, rfl⟩
  case registers => exact fun r _ => congrFun (State.reg_congr rfl) r
  case memory => exact congrFun (State.byteAt_congr rfl rfl rfl)

/-- A jump through a register that exists completes: its Execute stage takes the register's value without a check. -/
theorem exec_jumpToReg_of_lt (s : State) {a : Nat} (ha : a < 32) :
    exec (.jumpToReg a) s =
      .next (executeJump { s.latchOpcode .jumpToReg with rfOut1 := s.reg a, rfOut2 := 0 }) := by
  change execJumpToReg a s = _
  rw [execJumpToReg, latchOneReg_of_lt .jumpToReg ha]
  rfl

/-- Settles O25: opcode 7's layout, the jump's whole effect, and the ticks of an opcode without write-back. -/
theorem jumpToRegInstruction : Obligations.JumpToRegInstruction := by
  refine ⟨fun _ hop => decodeWord_of_code (o := .jumpToReg) hop, fun s a ha => ?effect,
    fun a => takesTicks (.jumpToReg a), by decide⟩
  case effect => exact ⟨_, exec_jumpToReg_of_lt s ha, rfl, onlyPc_of_latchOpcode s .jumpToReg (s.reg a) 0 (s.reg a)⟩

end Sys2Proof.Machine

/-! PROOF. `nop` and `displayFlush` (44_system.md R170, R171): both only move `pc` on, and `displayFlush` also renders,
so its effect is that of `nop` with one event more in the trace. -/

namespace Sys2Proof.Machine

variable {s : State}

/-! ## What the two instructions do -/

/-- Moving on after the opcode is latched takes `pc` to the next word and changes nothing else that a program or the
interface sees. -/
theorem onlyPc_executeNop (s : State) (o : Opcode) : Claims.OnlyPc s (executeNop (s.latchOpcode o)) :=
  onlyPc_of_latchOpcode s o s.rfOut1 s.rfOut2 (s.pc + 4)

/-- The `pc` that Decode latches for the next instruction is the one `nop` moves on to. -/
@[simp] theorem executeNop_latchOpcode_pc (s : State) (o : Opcode) :
    (executeNop (s.latchOpcode o)).pc = s.pc + 4 := rfl

/-- The Execute stage of `displayFlush` is that of `nop` and the render event. -/
theorem executeDisplayFlush_eq (s : State) :
    executeDisplayFlush s = { executeNop s with trace := s.trace ++ [.render s.vid] } := rfl

/-- `nop` completes in every state. -/
theorem exec_nop (s : State) : exec .nop s = .next (executeNop (s.latchOpcode .nop)) := rfl

/-- `displayFlush` completes in every state, and but for its event it leaves what moving on leaves. -/
theorem exec_displayFlush (s : State) :
    exec .displayFlush s =
      .next { executeNop (s.latchOpcode .displayFlush) with trace := s.trace ++ [.render s.vid] } :=
  congrArg Host.Outcome.next (executeDisplayFlush_eq (s.latchOpcode .displayFlush))

/-- The video region of the address space is the video instance. -/
theorem State.byteAt_vbase_add {o : Nat} (ho : o < 4096) : s.byteAt (s.vbase + o) = some (Memory.read s.vid o) := by
  rw [State.byteAt_video (Nat.le_add_right _ _) (Nat.add_lt_add_left ho _), Nat.add_sub_cancel_left]

/-! ## The tick in which the event appears -/

@[simp] theorem State.afterDecode_trace (o : Opcode) : (s.afterDecode o).trace = s.trace := by cases o <;> rfl
@[simp] theorem State.afterDecode_vid (o : Opcode) : (s.afterDecode o).vid = s.vid := by cases o <;> rfl

/-- The Fetch and Decode ticks of an instruction leave the trace. -/
theorem tickN_two_trace {i : Instr} (hready : s.Ready) (hfetches : s.Fetches i) : (tickN 2 s).trace = s.trace := by
  obtain ⟨w, -, htick2, -⟩ := step_of_fetches hready hfetches
  simp [htick2]

/-- The Execute tick of `displayFlush` renders the video instance as it was at its Fetch. -/
theorem tickN_three_trace_of_displayFlush (hready : s.Ready) (hfetches : s.Fetches .displayFlush) :
    (tickN 3 s).trace = s.trace ++ [.render s.vid] := by
  obtain ⟨w, -, htick2, -⟩ := step_of_fetches hready hfetches
  rw [Instr.opcode] at htick2
  obtain ⟨-, hhalted, hfault⟩ := hready
  have htick3 : tickN 1 ((s.afterFetch w).afterDecode .displayFlush) =
      executeDisplayFlush ((s.afterFetch w).afterDecode .displayFlush) :=
    tickN_one_of_executeOpcode (o := .displayFlush) (State.afterDecode_cuState _) (State.afterDecode_opLatch _)
      (by simpa using hhalted) (by simpa using hfault) rfl
  rw [tickN_add 2 1, htick2, htick3, executeDisplayFlush_eq]
  simp

/-! ## The obligations -/

/-- Settles O30: opcode 0's layout, the frame of moving on, and the ticks of an opcode without write-back. -/
theorem nopInstruction : Obligations.NopInstruction :=
  ⟨fun _ hop => decodeWord_of_code (o := .nop) hop, by decide,
    fun s => ⟨_, exec_nop s, executeNop_latchOpcode_pc s .nop, onlyPc_executeNop s .nop⟩, takesTicks .nop⟩

/-- Settles O31: the frame is that of `nop` but for the trace, and the event is the video instance in the Execute
tick. -/
theorem displayFlushInstruction : Obligations.DisplayFlushInstruction := by
  refine ⟨fun _ hop => decodeWord_of_code (o := .displayFlush) hop, by decide, fun s => ?effect,
    takesTicks .displayFlush,
    fun s hready hfetches =>
      ⟨tickN_two_trace hready hfetches, tickN_three_trace_of_displayFlush hready hfetches⟩⟩
  case effect =>
    obtain ⟨hfetch, hregs, hflags, hmemory, hout, hhalted, -, hcondition⟩ := onlyPc_executeNop s .displayFlush
    exact ⟨_, s.vid, exec_displayFlush s, rfl, fun _ => State.byteAt_vbase_add,
      executeNop_latchOpcode_pc s .displayFlush, hfetch, hregs, hflags, hmemory, hout, hhalted, hcondition⟩

end Sys2Proof.Machine

/-! PROOF. The fatal errors stage by stage (60_exceptions.md section 2): which error each stage can raise, and that the
Write stage of a machine that meets the invariant raises none (R188). -/

namespace Sys2Proof.Machine

variable {s : State} {f : Fault}

/-- A computation that is fatal is fatal in its first part, or goes through it and is fatal in the rest. -/
theorem error_cases_of_bind_eq_error {α β : Type} {m : Except Fault α} {k : α → Except Fault β}
    (h : (m >>= k) = .error f) : m = .error f ∨ ∃ a, m = .ok a ∧ k a = .error f := by
  cases m with
  | error e => cases h; exact .inl rfl
  | ok a => exact .inr ⟨a, rfl, h⟩

/-- The only fatal error of reading the zero flag is the empty latch. -/
theorem State.readZero_error (h : s.readZero = .error f) : s.flagsValid = false ∧ f = .undefinedSignal .flags := by
  cases hvalid : s.flagsValid with
  | true => rw [State.readZero_of_valid hvalid] at h; cases h
  | false => rw [State.readZero_of_invalid hvalid] at h; cases h; exact ⟨rfl, rfl⟩

/-- The only fatal error of reading the positive flag is the empty latch. -/
theorem State.readPositive_error (h : s.readPositive = .error f) :
    s.flagsValid = false ∧ f = .undefinedSignal .flags := by
  cases hvalid : s.flagsValid with
  | true => rw [State.readPositive_of_valid hvalid] at h; cases h
  | false => rw [State.readPositive_of_invalid hvalid] at h; cases h; exact ⟨rfl, rfl⟩

/-! ## What each stage raises -/

/-- Fetch raises the range error of `pc` alone. -/
theorem fetchStage_error (hstage : s.cuState = .fetch) (h : fetchStage s = .error f) : f = .addrRange s.pc := by
  rw [fetchStage_eq hstage] at h
  cases hread : s.memRead s.pc with
  | error e =>
    rw [hread] at h
    cases h
    exact State.memRead_error hread
  | ok w => rw [hread] at h; cases h

/-- Decode raises the unassigned opcode of the latched word alone. -/
theorem decodeStage_error (h : decodeStage s = .error f) :
    Opcode.ofCode (opcodeField s.memOut) = none ∧ f = .badOpcode (opcodeField s.memOut) := by
  cases hof : Opcode.ofCode (opcodeField s.memOut) with
  | none => rw [decodeStage_of_unassigned hof] at h; cases h; exact ⟨rfl, rfl⟩
  | some o => rw [decodeStage_of_assigned hof] at h; cases h

/-- Execute of an opcode raises the empty flag latch in a branch, the range error of the address register in a load or
store, and nothing else. -/
theorem executeOpcode_error {o : Opcode} (hstage : s.cuState = .execute) (hop : s.opLatch = o.code)
    (h : executeOpcode o s = .error f) :
    ((o = .branchIfZero ∨ o = .branchIfPositive) ∧ s.flagsValid = false ∧ f = .undefinedSignal .flags) ∨
      ((o = .load ∨ o = .store) ∧ f = .addrRange s.rfOut1) := by
  cases o with
  | nop | addImmediate | subImmediate | add | sub | nand | lshift | jumpToReg | displayFlush | halt => cases h
  | branchIfZero =>
    obtain hread | ⟨taken, -, hbranch⟩ := error_cases_of_bind_eq_error (m := s.readZero) h
    · exact .inl ⟨.inl rfl, State.readZero_error hread⟩
    · cases hbranch
  | branchIfPositive =>
    obtain hread | ⟨taken, -, hbranch⟩ := error_cases_of_bind_eq_error (m := s.readPositive) h
    · exact .inl ⟨.inr rfl, State.readPositive_error hread⟩
    · cases hbranch
  | load =>
    rw [executeOpcode, memoryAddress_execute hstage (.inl hop)] at h
    obtain hread | ⟨w, -, hlatch⟩ := error_cases_of_bind_eq_error (m := s.memRead s.rfOut1) h
    · exact .inr ⟨.inl rfl, State.memRead_error hread⟩
    · cases hlatch
  | store =>
    rw [executeOpcode, memoryAddress_execute hstage (.inr hop)] at h
    obtain hwrite | ⟨t, -, hmove⟩ := error_cases_of_bind_eq_error (m := s.memWrite s.rfOut1 s.rfOut2) h
    · exact .inr ⟨.inr rfl, State.memWrite_error hwrite⟩
    · cases hmove

/-- Execute raises the latched opcode if it is unassigned, and otherwise what that opcode's row raises. -/
theorem executeStage_error (h : executeStage s = .error f) :
    (Opcode.ofCode s.opLatch = none ∧ f = .badOpcode s.opLatch) ∨
      ∃ o : Opcode, s.opLatch = o.code ∧ executeOpcode o s = .error f := by
  cases hof : Opcode.ofCode s.opLatch with
  | none => rw [executeStage, hof] at h; cases h; exact .inl ⟨rfl, rfl⟩
  | some o =>
    have hop : s.opLatch = o.code := (Opcode.code_of_ofCode hof).symm
    rw [executeStage_of_code hop] at h
    exact .inr ⟨o, hop, h⟩

/-- The opcodes with write-back are the six arithmetic ones and `load`. -/
theorem Opcode.code_of_writesBack {o : Opcode} (h : o.writesBack = true) : o.code ∈ Claims.arithmetic ∨ o.code = 14 := by
  revert h
  cases o <;> decide

/-- The Write stage of an opcode with write-back goes through: its destination is a register that exists. -/
theorem exists_writeStage_of_writesBack (h : (Opcode.ofCode s.opLatch).any Opcode.writesBack = true) :
    ∃ t, writeStage s = .ok t := by
  cases hof : Opcode.ofCode s.opLatch with
  | none => rw [hof] at h; cases h
  | some o =>
    rw [hof] at h
    have hback := Opcode.code_of_writesBack h
    rw [Opcode.code_of_ofCode hof] at hback
    obtain harith | hload := hback
    · exact ⟨_, (writeStage_of_arithmetic harith).trans (State.writeBack_eq s _)⟩
    · exact ⟨_, (writeStage_of_load hload).trans (State.writeBack_eq s _)⟩

/-- A tick of an unfaulted machine is fatal only if its stage is. -/
theorem runStage_of_tick_fatal (hfault : s.fault = none) (h : (tick s).2 = .fatal f) : runStage s = .error f := by
  cases hhalted : s.halted with
  | true => simp [tick, hfault, hhalted] at h
  | false =>
    cases hrun : runStage s with
    | error e => rw [tick_of_error hhalted hfault hrun] at h; cases h; rfl
    | ok t => rw [tick_of_ok hhalted hfault hrun] at h; cases h

/-! ## The Write stage's error is not reached -/

/-- No stage of a machine whose stage agrees with its latched opcode raises the missing write-back: the other stages
raise other errors, and Write is reached with a write-back opcode alone. -/
theorem runStage_ne_writeNoWriteback (hok : s.StageOk) (op : Field5) : runStage s ≠ .error (.writeNoWriteback op) := by
  intro h
  cases hstage : s.cuState with
  | fetch =>
    rw [runStage, hstage] at h
    cases fetchStage_error hstage h
  | decode =>
    rw [runStage, hstage] at h
    cases (decodeStage_error h).2
  | execute =>
    rw [runStage, hstage] at h
    obtain ⟨-, hbad⟩ | ⟨o, hop, hexec⟩ := executeStage_error h
    · cases hbad
    · obtain ⟨-, -, hflags⟩ | ⟨-, hrange⟩ := executeOpcode_error hstage hop hexec
      · cases hflags
      · cases hrange
  | write =>
    rw [runStage, hstage] at h
    obtain ⟨t, hwrite⟩ := exists_writeStage_of_writesBack (hok.2 hstage)
    cases hwrite.symm.trans h

/-- Settles O14: the Write stage's own case for the other opcodes, and the invariant that keeps them out of Write. -/
theorem writeWithoutWriteBackIsUnreachable : Obligations.WriteWithoutWriteBackIsUnreachable := by
  refine ⟨fun s => writeStage_of_other, fun s op hinv hfault htick => ?unreachable⟩
  case unreachable =>
    obtain ⟨-, -, -, -, hstage, -, -⟩ := hinv
    exact runStage_ne_writeNoWriteback hstage op (runStage_of_tick_fatal hfault htick)

end Sys2Proof.Machine

/-! PROOF. The encoder's layouts read back by the decoder's fields (30_encoding.md R71 to R86): a slot of a word, the
round trip of a well-formed instruction, and the bits an instruction's class does not use. -/

namespace Sys2Proof

/-! ## One slot of a word -/

section Slot
variable {k n m l : Nat}

/-- A value put at an offset is read back there. -/
theorem extractLsb'_slot (v : BitVec k) (h : n + k ≤ 32) : (v.setWidth 32 <<< n).extractLsb' n k = v := by
  ext i hi
  simp [hi, show n + i < 32 by omega]

/-- Below the offset at which a value is put the word is zero. -/
theorem extractLsb'_slot_of_le (v : BitVec k) (h : m + l ≤ n) : (v.setWidth 32 <<< n).extractLsb' m l = 0#l := by
  ext i hi
  simp [show m + i < n by omega]

/-- Above the value the word is zero. -/
theorem extractLsb'_slot_of_ge (v : BitVec k) (h : n + k ≤ m) : (v.setWidth 32 <<< n).extractLsb' m l = 0#l := by
  ext i hi
  simp [BitVec.getLsbD_of_ge v (m + i - n) (by omega)]

/-- A slot of a word, put back where it stood, is the word with every other bit cleared. -/
theorem slot_extractLsb' (w : Word) (k n : Nat) :
    (w.extractLsb' n k).setWidth 32 <<< n = w &&& (BitVec.allOnes k).setWidth 32 <<< n := by
  ext i hi
  by_cases hlow : i < n
  · simp [hlow]
  · simp [hlow, show n + (i - n) = i by omega, BitVec.getLsbD_eq_getElem hi, Bool.and_comm]

/-- A field is read back at its own offset. -/
@[simp] theorem extractLsb'_fieldAt (f : Field5) (h : n + 5 ≤ 32) : (fieldAt f n).extractLsb' n 5 = f :=
  extractLsb'_slot f h

/-- A field leaves the bits below it zero. -/
@[simp] theorem extractLsb'_fieldAt_of_le (f : Field5) (h : m + l ≤ n) : (fieldAt f n).extractLsb' m l = 0#l :=
  extractLsb'_slot_of_le f h

/-- A field leaves the bits above it zero. -/
@[simp] theorem extractLsb'_fieldAt_of_ge (f : Field5) (h : n + 5 ≤ m) : (fieldAt f n).extractLsb' m l = 0#l :=
  extractLsb'_slot_of_ge f h

end Slot

/-! ## The fields of the encoder's layouts -/

section Layouts
variable (o : Opcode) (d a b : Nat) (imm : Int)

@[simp] theorem fieldDest_encThreeReg : fieldDest (encThreeReg o d b a) = regField d := by
  simp [fieldDest, encThreeReg, BitVec.extractLsb'_or]

@[simp] theorem fieldB_encThreeReg : fieldB (encThreeReg o d b a) = regField b := by
  simp [fieldB, encThreeReg, BitVec.extractLsb'_or]

@[simp] theorem fieldA_encThreeReg : fieldA (encThreeReg o d b a) = regField a := by
  simp [fieldA, encThreeReg, BitVec.extractLsb'_or]

@[simp] theorem immSlot_encRegImm : immSlot (encRegImm o a imm) = BitVec.ofInt 22 imm := by
  simp [immSlot, encRegImm, BitVec.extractLsb'_or, extractLsb'_slot]

@[simp] theorem fieldA_encRegImm : fieldA (encRegImm o a imm) = regField a := by
  simp [fieldA, encRegImm, BitVec.extractLsb'_or, extractLsb'_slot_of_le]

@[simp] theorem fieldA_encOneReg : fieldA (encOneReg o a) = regField a := by
  simp [fieldA, encOneReg, BitVec.extractLsb'_or]

@[simp] theorem fieldDest_encLoadForm : fieldDest (encLoadForm o d a) = regField d := by
  simp [fieldDest, encLoadForm, BitVec.extractLsb'_or]

@[simp] theorem fieldA_encLoadForm : fieldA (encLoadForm o d a) = regField a := by
  simp [fieldA, encLoadForm, BitVec.extractLsb'_or]

@[simp] theorem fieldA_encStoreForm : fieldA (encStoreForm o a b) = regField a := by
  simp [fieldA, encStoreForm, BitVec.extractLsb'_or]

@[simp] theorem fieldB_encStoreForm : fieldB (encStoreForm o a b) = regField b := by
  simp [fieldB, encStoreForm, BitVec.extractLsb'_or]

end Layouts

/-- The encoder's word carries the instruction's opcode. -/
theorem opcodeField_encode (i : Instr) : opcodeField (encode i) = i.opcode.code := by
  cases i with
  | nop => exact Laws.EncodeOpcode.nop.1
  | addImmediate a imm => exact (Laws.EncodeOpcode.addImmediate a imm).1
  | subImmediate a imm => exact (Laws.EncodeOpcode.subImmediate a imm).1
  | add d a b => exact (Laws.EncodeOpcode.add d a b).1
  | sub d a b => exact (Laws.EncodeOpcode.sub d a b).1
  | nand d a b => exact (Laws.EncodeOpcode.nand d a b).1
  | lshift d a b => exact (Laws.EncodeOpcode.lshift d a b).1
  | jumpToReg a => exact (Laws.EncodeOpcode.jumpToReg a).1
  | branchIfZero a => exact (Laws.EncodeOpcode.branchIfZero a).1
  | branchIfPositive a => exact (Laws.EncodeOpcode.branchIfPositive a).1
  | load d a => exact (Laws.EncodeOpcode.load d a).1
  | store a b => exact (Laws.EncodeOpcode.store a b).1
  | displayFlush => exact Laws.EncodeOpcode.displayFlush.1
  | halt => exact Laws.EncodeOpcode.halt.1

/-! ## Decode after encode (R82, R86) -/

theorem regOk_iff {r : Nat} : regOk r = true ↔ r < 32 := decide_eq_true_iff

theorem immOk_iff {imm : Int} : immOk imm = true ↔ -2097152 ≤ imm ∧ imm ≤ 2097151 := by simp [immOk]

/-- The slot of an immediate in range holds it. -/
theorem toInt_ofInt_of_immOk {imm : Int} (h : immOk imm = true) : (BitVec.ofInt 22 imm).toInt = imm := by
  obtain ⟨hlow, hhigh⟩ := immOk_iff.mp h
  exact BitVec.toInt_ofInt_eq_self (by decide) (by omega) (by omega)

/-- The fields of a well-formed instruction's word are its operands, class by class. -/
theorem withFields_encode {i : Instr} (h : i.WellFormed) : i.opcode.withFields (encode i) = i := by
  cases i with
  | nop | displayFlush | halt => rfl
  | addImmediate a imm | subImmediate a imm =>
    obtain ⟨ha, himm⟩ := Bool.and_eq_true_iff.mp h
    simp [Instr.opcode, Opcode.withFields, encode, Machine.regField_toNat (regOk_iff.mp ha), -BitVec.toInt_ofInt,
      toInt_ofInt_of_immOk himm]
  | add d a b | sub d a b | nand d a b | lshift d a b =>
    simp only [Instr.WellFormed, Instr.wf, Bool.and_eq_true, regOk_iff] at h
    obtain ⟨⟨hd, ha⟩, hb⟩ := h
    simp [Instr.opcode, Opcode.withFields, encode, Machine.regField_toNat, hd, ha, hb]
  | jumpToReg a | branchIfZero a | branchIfPositive a =>
    simp [Instr.opcode, Opcode.withFields, encode, Machine.regField_toNat (regOk_iff.mp h)]
  | load a b | store a b =>
    obtain ⟨ha, hb⟩ := Bool.and_eq_true_iff.mp h
    simp [Instr.opcode, Opcode.withFields, encode, Machine.regField_toNat (regOk_iff.mp ha),
      Machine.regField_toNat (regOk_iff.mp hb)]

theorem decodeWord_encode {i : Instr} (h : i.WellFormed) : decodeWord (encode i) = some i := by
  rw [decodeWord_of_code (opcodeField_encode i), withFields_encode h]

/-- The bytes memory holds for a word decode as the word does. -/
theorem decode_wordBytes {w : Word} {i : Instr} (h : decodeWord w = some i) : decode (wordBytes w) = .ok (i, []) := by
  simp [decode, wordBytes, Machine.wordOfBytes_wordBytes, h]

/-- Settles O2: the opcode and the fields of the encoder's word are the instruction's, and its four bytes are the
word. -/
theorem decodeOfEncodeIsIdentity : Obligations.DecodeOfEncodeIsIdentity := fun _ h =>
  ⟨decodeWord_encode h, decode_wordBytes (decodeWord_encode h)⟩

/-! ## The bits a class does not use (R83) -/

/-- A word that decodes has an assigned opcode and decodes to that opcode's instruction over its fields. -/
theorem decodeWord_eq_some {w : Word} {i : Instr} :
    decodeWord w = some i ↔ ∃ o : Opcode, opcodeField w = o.code ∧ i = o.withFields w := by
  refine ⟨fun h => ?_, fun ⟨o, hop, hi⟩ => hi ▸ decodeWord_of_code hop⟩
  obtain ⟨o, hcode, hi⟩ := Option.map_eq_some_iff.mp h
  exact ⟨o, (Machine.Opcode.code_of_ofCode hcode).symm, hi.symm⟩

theorem regOk_field (f : Field5) : regOk f.toNat = true := regOk_iff.mpr f.isLt

theorem immOk_immSlot (w : Word) : immOk (immSlot w).toInt = true :=
  immOk_iff.mpr (toInt_immField w ▸ immField_range w)

/-- Every operand a word's fields hold is in range. -/
theorem wellFormed_withFields (o : Opcode) (w : Word) : (o.withFields w).WellFormed := by
  cases o <;> simp [Opcode.withFields, Instr.WellFormed, Instr.wf, regOk_field, immOk_immSlot]

/-- The encoder's word for a word's own fields keeps the bits the class uses, slot by slot. -/
theorem encode_withFields {o : Opcode} {w : Word} (h : opcodeField w = o.code) :
    encode (o.withFields w) = w &&& o.usedMask := by
  have hfield (n : Nat) : fieldAt (w.extractLsb' n 5) n = w &&& (BitVec.allOnes 5).setWidth 32 <<< n :=
    slot_extractLsb' w 5 n
  have hdest := hfield 15
  have hb := hfield 10
  have ha := hfield 5
  have hop : fieldAt o.code 0 = w &&& (BitVec.allOnes 5).setWidth 32 <<< 0 := h ▸ hfield 0
  have himm := slot_extractLsb' w 22 10
  cases o with
  | nop | displayFlush | halt => exact hop
  | addImmediate | subImmediate =>
    simp only [Opcode.withFields, encode, encRegImm, Machine.regField_toNat_field, fieldA, immSlot, BitVec.ofInt_toInt,
      himm, ha, hop, ← BitVec.and_or_distrib_left]
    rfl
  | add | sub | nand | lshift =>
    simp only [Opcode.withFields, encode, encThreeReg, Machine.regField_toNat_field, fieldDest, fieldA, fieldB, hdest,
      hb, ha, hop, ← BitVec.and_or_distrib_left]
    rfl
  | jumpToReg | branchIfZero | branchIfPositive =>
    simp only [Opcode.withFields, encode, encOneReg, Machine.regField_toNat_field, fieldA, ha, hop,
      ← BitVec.and_or_distrib_left]
    rfl
  | load =>
    simp only [Opcode.withFields, encode, encLoadForm, Machine.regField_toNat_field, fieldDest, fieldA, hdest, ha, hop,
      ← BitVec.and_or_distrib_left]
    rfl
  | store =>
    simp only [Opcode.withFields, encode, encStoreForm, Machine.regField_toNat_field, fieldA, fieldB, hb, ha, hop,
      ← BitVec.and_or_distrib_left]
    rfl

/-- Every class uses the opcode's five bits. -/
theorem opcodeField_and_usedMask (w : Word) (o : Opcode) : opcodeField (w &&& o.usedMask) = opcodeField w := by
  have hmask : o.usedMask.extractLsb' 0 5 = BitVec.allOnes 5 := by cases o <;> rfl
  rw [opcodeField, BitVec.extractLsb'_and, hmask, BitVec.and_allOnes, opcodeField]

/-- Two words of one opcode that agree on the bits its class uses have the same encoding, so the same instruction. -/
theorem decodeWord_of_agree {w w' : Word} {o : Opcode} (hop : opcodeField w = o.code)
    (hagree : w' &&& o.usedMask = w &&& o.usedMask) : decodeWord w' = some (o.withFields w) := by
  have hop' : opcodeField w' = o.code := by
    rw [← opcodeField_and_usedMask w' o, hagree, opcodeField_and_usedMask, hop]
  have hencode : encode (o.withFields w') = encode (o.withFields w) := by
    rw [encode_withFields hop', hagree, encode_withFields hop]
  calc decodeWord w' = some (o.withFields w') := decodeWord_of_code hop'
    _ = decodeWord (encode (o.withFields w')) := (decodeWord_encode (wellFormed_withFields o w')).symm
    _ = some (o.withFields w) := by rw [hencode, decodeWord_encode (wellFormed_withFields o w)]

/-- Settles O3: the fields are in range, their encoding is the masked word, and the mask decides the instruction. -/
theorem unusedBitsAreIgnored : Obligations.UnusedBitsAreIgnored := by
  intro w i h
  obtain ⟨o, hop, rfl⟩ := decodeWord_eq_some.mp h
  rw [Machine.Opcode.opcode_withFields]
  exact ⟨wellFormed_withFields o w, encode_withFields hop, fun _ => decodeWord_of_agree hop⟩

/-! ## The encoder's words as numbers (R86) -/

/-- A register in range, as the field the spec's encoder shifts. -/
theorem fieldAt_regField {r : Nat} (h : r < 32) (n : Nat) : fieldAt (regField r) n = BitVec.ofNat 32 r <<< n := by
  have hwide : (regField r).setWidth 32 = BitVec.ofNat 32 r :=
    BitVec.eq_of_toNat_eq (by simp [regField, Nat.mod_eq_of_lt h, Nat.mod_eq_of_lt (show r < 4294967296 by omega)])
  rw [fieldAt, hwide]

/-- The low 22 bits of an immediate, as the mask of the spec's encoder takes them. -/
theorem setWidth_ofInt_eq_mask (imm : Int) :
    (BitVec.ofInt 22 imm).setWidth 32 = BitVec.ofInt 32 imm &&& 0x3FFFFF#32 := by
  have hlow : BitVec.ofInt 22 imm = (BitVec.ofInt 32 imm).extractLsb' 0 22 := by
    apply BitVec.eq_of_toNat_eq
    rw [BitVec.extractLsb'_toNat, BitVec.toNat_ofInt, BitVec.toNat_ofInt, Nat.shiftRight_zero]
    omega
  have hslot := slot_extractLsb' (BitVec.ofInt 32 imm) 22 0
  rw [BitVec.shiftLeft_zero, BitVec.shiftLeft_zero] at hslot
  rw [hlow, hslot]
  rfl

/-- Settles O5: each layout's slots are the spec's shifts, and the opcode's value is the constant. -/
theorem encoderIsShiftsAndOrs : Obligations.EncoderIsShiftsAndOrs := by
  intro d a b hd ha hb
  refine ⟨fun p hp => ?threeReg, fun imm _ _ p hp => ?regImm, fun p hp => ?oneReg, rfl, rfl, rfl, ?load, ?store⟩
  case threeReg =>
    simp only [List.mem_cons, List.not_mem_nil, or_false] at hp
    rcases hp with rfl | rfl | rfl | rfl <;>
      simp only [encode, encThreeReg, fieldAt_regField hd, fieldAt_regField ha, fieldAt_regField hb] <;> rfl
  case regImm =>
    simp only [List.mem_cons, List.not_mem_nil, or_false] at hp
    rcases hp with rfl | rfl <;>
      simp only [encode, encRegImm, fieldAt_regField ha, setWidth_ofInt_eq_mask] <;> rfl
  case oneReg =>
    simp only [List.mem_cons, List.not_mem_nil, or_false] at hp
    rcases hp with rfl | rfl | rfl <;> simp only [encode, encOneReg, fieldAt_regField ha] <;> rfl
  case load => simp only [encode, encLoadForm, fieldAt_regField hd, fieldAt_regField ha]; rfl
  case store => simp only [encode, encStoreForm, fieldAt_regField ha, fieldAt_regField hb]; rfl

/-- Settles O1: the decoder evaluated on the seventeen words. -/
theorem writtenWordsDecode : Obligations.WrittenWordsDecode := by
  unfold Obligations.WrittenWordsDecode
  decide

end Sys2Proof


/-! PROOF. The ALU, the wires, the register file and the translated memory (40_control_unit.md R110, R118, 10_state.md
R11 to R16, 20_memory.md R41 to R51): what each operation answers, on all its operands. -/

namespace Sys2Proof

/-! ## Bytes of a word (20_memory.md R41) -/

/-- The bytes of a word made from four bytes are the four, most significant first. -/
theorem extractLsb'_wordOfBytes (b0 b1 b2 b3 : Byte) :
    (wordOfBytes b0 b1 b2 b3).extractLsb' 24 8 = b0 ∧ (wordOfBytes b0 b1 b2 b3).extractLsb' 16 8 = b1 ∧
      (wordOfBytes b0 b1 b2 b3).extractLsb' 8 8 = b2 ∧ (wordOfBytes b0 b1 b2 b3).extractLsb' 0 8 = b3 := by
  refine ⟨?_, ?_, ?_, ?_⟩
  · exact (BitVec.extractLsb'_append_eq_of_le (by decide)).trans <|
      (BitVec.extractLsb'_append_eq_of_le (by decide)).trans BitVec.extractLsb'_append_eq_left
  · exact (BitVec.extractLsb'_append_eq_of_le (by decide)).trans <|
      (BitVec.extractLsb'_append_eq_of_le (by decide)).trans BitVec.extractLsb'_append_eq_right
  · exact (BitVec.extractLsb'_append_eq_of_le (by decide)).trans BitVec.extractLsb'_append_eq_right
  · exact BitVec.extractLsb'_append_eq_right

end Sys2Proof

namespace Sys2Proof.Machine

variable {s t : State} {a v w : Word}

/-! ## The ALU -/

/-- The shift count is the second operand modulo 32 (D24). -/
theorem aluValue_lshift (a b : Word) : aluValue .lshift a b = a <<< (b.toNat % 32) := by
  rw [aluValue, BitVec.extractLsb'_toNat]
  rfl

/-- Settles O9: the four operations as numbers, and the flags as those of the result. -/
theorem aluComputesItsFourOperations : Obligations.AluComputesItsFourOperations := by
  refine fun a b => ⟨BitVec.toNat_add a b, ?sub, fun i hi => ?nand, ?lshift, fun f =>
    ⟨zeroFlag_eq_true, decide_eq_true_iff, positiveFlag_eq_true, positiveFlag_of_zeroFlag⟩⟩
  case sub => rw [alu_result, aluValue, BitVec.toNat_sub, Nat.add_comm]
  case nand => simp [aluValue, hi]
  case lshift => rw [alu_result, aluValue_lshift, BitVec.toNat_shiftLeft, Nat.shiftLeft_eq]

/-! ## Signals, Registers, and the address bus -/

/-- Settles O10: each operation of the two primitives evaluated. -/
theorem signalsAndRegisters : Obligations.SignalsAndRegisters :=
  ⟨fun _ _ _ => ⟨rfl, rfl, rfl, rfl, rfl⟩, fun _ _ _ => ⟨rfl, rfl, rfl, rfl, rfl, rfl⟩⟩

/-- A bus is in contention exactly with two drivers or more (40_control_unit.md R118). -/
theorem Bus.resolve_eq_contention {vs : List Word} : Bus.resolve vs = .error .busContention ↔ 2 ≤ vs.length := by
  match vs with
  | [] | [_] => simp [Bus.resolve]
  | _ :: _ :: _ => simp [Bus.resolve]

/-- The memory's address input is driven by one stage at a time. -/
theorem addressDrivers_length_le (s : State) : (addressDrivers s).length ≤ 1 := by
  unfold addressDrivers
  cases s.cuState with
  | fetch | decode | write => simp
  | execute =>
    by_cases hop : s.opLatch = Opcode.load.code ∨ s.opLatch = Opcode.store.code <;> simp [hop]

/-! ## The register file -/

/-- A write port outside the range (10_state.md R16). -/
theorem RegFile.write_of_ge {x : RegFile} {i : Nat} {v : Word} (h : 32 ≤ i) :
    RegFile.write x i v = .error (.regIndex i) := by
  simp [RegFile.write, Nat.not_lt.mpr h]

/-- What each register reads after a write to one that exists. -/
theorem State.reg_setX_put {i : Nat} (hi : i < 32) (v : Word) (j : Nat) :
    (s.setX (RegFile.put s.x i v)).reg j = if j = i ∧ i ≠ 0 then v else s.reg j :=
  RegFile.value_put s.x j v hi

/-- Settles O11: both ports before and after a write, by the register read. -/
theorem registerFilePorts : Obligations.RegisterFilePorts := by
  intro s v i j hpos hi hj
  have hi0 : i ≠ 0 := Nat.pos_iff_ne_zero.mp hpos
  have h0 : 0 < 32 := by decide
  refine ⟨State.readDual_of_lt h0 hj, State.readDual_of_lt hj h0, State.writeReg_of_lt h0,
    ⟨_, State.writeReg_of_lt hi, ?readZero, ?readBoth, fun hji => ?readOther⟩, fun _ _ => rfl⟩
  case readZero => rw [State.readDual_of_lt hi h0, State.reg_setX_put hi, if_pos ⟨rfl, hi0⟩, State.reg_zero]
  case readBoth => rw [State.readDual_of_lt hi hi, State.reg_setX_put hi, if_pos ⟨rfl, hi0⟩]
  case readOther =>
    rw [State.readDual_of_lt hj hi, State.reg_setX_put hi, State.reg_setX_put hi, if_neg fun h => hji h.1,
      if_pos ⟨rfl, hi0⟩]

/-! ## The translated memory -/

/-- A read of a legal address answers. -/
theorem State.exists_memRead (h : s.Legal a) : ∃ w, s.memRead a = .ok w := by
  rcases s.locate_cases a with ⟨-, e⟩ | ⟨-, -, e⟩ | ⟨-, hmain, hvideo⟩
  · exact ⟨_, by rw [State.memRead, e]; rfl⟩
  · exact ⟨_, by rw [State.memRead, e]; rfl⟩
  · exact absurd h (not_or.mpr ⟨hmain, hvideo⟩)

/-- A read of any other address is fatal with it. -/
theorem State.memRead_of_not_legal (h : ¬ s.Legal a) : s.memRead a = .error (.addrRange a) := by
  cases hread : s.memRead a with
  | ok w => exact absurd (State.legal_of_memRead hread) h
  | error f => rw [State.memRead_error hread]

/-- A write to a legal address answers. -/
theorem State.exists_memWrite (v : Word) (h : s.Legal a) : ∃ t, s.memWrite a v = .ok t := by
  rcases s.locate_cases a with ⟨-, e⟩ | ⟨-, -, e⟩ | ⟨-, hmain, hvideo⟩
  · exact ⟨_, by rw [State.memWrite, e]; rfl⟩
  · exact ⟨_, by rw [State.memWrite, e]; rfl⟩
  · exact absurd h (not_or.mpr ⟨hmain, hvideo⟩)

/-- A write to any other address is fatal with it. -/
theorem State.memWrite_of_not_legal (v : Word) (h : ¬ s.Legal a) : s.memWrite a v = .error (.addrRange a) := by
  cases hwrite : s.memWrite a v with
  | ok t => exact absurd (State.legal_of_memWrite hwrite) h
  | error f => rw [State.memWrite_error hwrite]

/-- Settles O16: reads and writes at legal addresses and at the others. -/
theorem legalAddresses : Obligations.LegalAddresses := fun _ _ v =>
  ⟨fun h => ⟨State.exists_memRead h, State.exists_memWrite v h⟩,
    fun h => ⟨State.memRead_of_not_legal h, State.memWrite_of_not_legal v h⟩⟩

/-- The four bytes from a legal address on are those from its offset on in the memory it selects. -/
theorem State.byteAt_of_locate {r : Region} {o k : Nat} (h : s.locate a = .ok (r, o)) (hk : k < 4) :
    s.byteAt (a.toNat + k) = some (Memory.read (s.instanceOf r) (o + k)) := by
  rcases s.locate_cases a with ⟨hend, e⟩ | ⟨hlow, hend, e⟩ | ⟨e, -⟩
  · cases e.symm.trans h
    exact State.byteAt_main (by omega)
  · cases e.symm.trans h
    rw [State.byteAt_video (by omega) (by omega), Nat.sub_add_comm hlow, State.instanceOf]
  · cases e.symm.trans h

/-- The word read is the one whose bytes stand at the address. -/
theorem State.wordAt_of_memRead (h : s.memRead a = .ok w) : Claims.WordAt s a w := by
  cases hloc : s.locate a with
  | error f => rw [State.memRead, hloc] at h; cases h
  | ok p =>
    rw [State.memRead, hloc] at h
    cases h
    have hbyte {k : Nat} (hk : k < 4) := State.byteAt_of_locate hloc hk
    obtain ⟨h0, h1, h2, h3⟩ := extractLsb'_wordOfBytes (Memory.read (s.instanceOf p.1) p.2)
      (Memory.read (s.instanceOf p.1) (p.2 + 1)) (Memory.read (s.instanceOf p.1) (p.2 + 2))
      (Memory.read (s.instanceOf p.1) (p.2 + 3))
    exact ⟨(hbyte (k := 0) (by decide)).trans (congrArg some h0.symm),
      (hbyte (by decide)).trans (congrArg some h1.symm), (hbyte (by decide)).trans (congrArg some h2.symm),
      (hbyte (by decide)).trans (congrArg some h3.symm)⟩

/-- Settles O18: the bytes of a word read, by position. -/
theorem readsAreBigEndian : Obligations.ReadsAreBigEndian := fun _ _ _ => State.wordAt_of_memRead

/-- The bytes at an address are those of one word at most. -/
theorem wordAt_unique (h : Claims.WordAt s a v) (h' : Claims.WordAt s a w) : v = w := by
  obtain ⟨h0, h1, h2, h3⟩ := h
  obtain ⟨h0', h1', h2', h3'⟩ := h'
  rw [← wordOfBytes_wordBytes v, ← wordOfBytes_wordBytes w, Option.some.inj (h0.symm.trans h0'),
    Option.some.inj (h1.symm.trans h1'), Option.some.inj (h2.symm.trans h2'), Option.some.inj (h3.symm.trans h3')]

/-- A legal address at which a word's bytes stand reads as the word. -/
theorem State.memRead_of_wordAt (hlegal : s.Legal a) (h : Claims.WordAt s a w) : s.memRead a = .ok w := by
  obtain ⟨v, hread⟩ := State.exists_memRead hlegal
  rw [hread, wordAt_unique (State.wordAt_of_memRead hread) h]

/-! ## A word written -/

/-- A word write leaves the offsets outside its four. -/
theorem Memory.read_writeWord_of_outside {m : Memory} {o c : Nat} (v : Word) (hm : Memory.wf m = true)
    (hc : c < o ∨ o + 4 ≤ c) : Memory.read (Memory.writeWord m o v) c = Memory.read m c := by
  rw [Memory.read_writeWord o c v hm, if_neg (by omega), if_neg (by omega), if_neg (by omega), if_neg (by omega)]

/-- A write changes the two memory instances and nothing else. -/
theorem State.eq_of_memWrite (h : s.memWrite a v = .ok t) : t = { s with main := t.main, vid := t.vid } := by
  obtain ⟨-, rfl⟩ | ⟨-, -, rfl⟩ := State.memWrite_cases h <;> rfl

/-- The address just written reads as the word written. -/
theorem State.memRead_of_memWrite (hm : s.MemoryOk) (h : s.memWrite a v = .ok t) : t.memRead a = .ok v := by
  obtain ⟨hmain, -, hvid, -⟩ := hm
  have hloc : t.locate a = s.locate a := congrFun (State.locate_congr (by rw [State.eq_of_memWrite h])) a
  rcases s.locate_cases a with ⟨-, e⟩ | ⟨-, -, e⟩ | ⟨e, -⟩
  · rw [State.memWrite, e] at h
    cases h
    rw [State.memRead, hloc, e]
    exact congrArg Except.ok (Memory.readWord_writeWord _ v hmain)
  · rw [State.memWrite, e] at h
    cases h
    rw [State.memRead, hloc, e]
    exact congrArg Except.ok (Memory.readWord_writeWord _ v hvid)
  · rw [State.memWrite, e] at h
    cases h

/-- A byte depends on the offset it stands at in its own memory alone. -/
theorem State.byteAt_congr_read {c : Nat} (hsize : t.mainSize = s.mainSize)
    (hmain : c < s.vbase → Memory.read t.main c = Memory.read s.main c)
    (hvid : s.vbase ≤ c → Memory.read t.vid (c - s.vbase) = Memory.read s.vid (c - s.vbase)) :
    t.byteAt c = s.byteAt c := by
  have hbase : t.vbase = s.vbase := hsize
  rw [State.byteAt, State.byteAt, byteOf, byteOf, hbase]
  by_cases hin : c < s.vbase
  · rw [if_pos hin, if_pos hin, hmain hin]
  · rw [if_neg hin, if_neg hin, hvid (Nat.not_lt.mp hin)]

/-- A word write leaves every byte outside its four. -/
theorem State.sameMemoryExcept_of_memWrite (hm : s.MemoryOk) (h : s.memWrite a v = .ok t) :
    SameMemoryExcept a s t := by
  obtain ⟨hmain, -, hvid, -⟩ := hm
  intro c hc
  obtain ⟨-, rfl⟩ | ⟨hlow, -, rfl⟩ := State.memWrite_cases h
  · exact State.byteAt_congr_read rfl (fun _ => Memory.read_writeWord_of_outside v hmain hc) fun _ => rfl
  · exact State.byteAt_congr_read rfl (fun _ => rfl) fun _ => Memory.read_writeWord_of_outside v hvid (by omega)

/-- Settles O17: the word read back, and from it its bytes; the frame of the write. -/
theorem memoryRoundTrip : Obligations.MemoryRoundTrip := fun _ _ _ _ hm h =>
  ⟨State.memRead_of_memWrite hm h, State.wordAt_of_memRead (State.memRead_of_memWrite hm h),
    State.sameMemoryExcept_of_memWrite hm h, State.memWrite_memoryOk h hm, State.eq_of_memWrite h⟩

end Sys2Proof.Machine


/-! PROOF. One tick of any machine (40_control_unit.md R100 to R109, R119): what a tick answers, what the Fetch and
Decode ticks leave, which tick changes what, and the fatal errors stage by stage (60_exceptions.md sections 1 and 2). -/

namespace Sys2Proof.Machine

variable {s t : State} {f : Fault}

/-! ## What a tick answers (R108, R109, R119) -/

/-- A tick of a faulted machine reports the fault again. -/
theorem tick_of_faulted (h : s.fault = some f) : tick s = (s, .fatal f) := by simp [tick, h]

theorem tick_fst_of_faulted (h : s.fault = some f) : (tick s).1 = s := by rw [tick_of_faulted h]

/-- A tick of a halted machine does nothing and answers true. -/
theorem tick_of_halted (hhalted : s.halted = true) (hfault : s.fault = none) : tick s = (s, .returned true) := by
  simp [tick, hhalted, hfault]

/-- A machine that a tick leaves as it is, any number of ticks leaves as it is. -/
theorem tickN_of_fixed (h : (tick s).1 = s) (k : Nat) : tickN k s = s := by
  induction k with
  | zero => rfl
  | succ k ih => rw [tickN, h, ih]

/-- Everything a tick of an unfaulted machine can do: a halted machine's nothing, a stage that answers, or a stage that
is fatal. -/
theorem tick_cases (hfault : s.fault = none) :
    (s.halted = true ∧ tick s = (s, .returned true)) ∨
    (s.halted = false ∧ ∃ t, runStage s = .ok t ∧ tick s = (t, .returned t.halted)) ∨
    (s.halted = false ∧ ∃ f, runStage s = .error f ∧ tick s = (s.raiseFatal f, .fatal f)) := by
  cases hhalted : s.halted with
  | true => exact .inl ⟨rfl, tick_of_halted hhalted hfault⟩
  | false =>
    cases hrun : runStage s with
    | ok t => exact .inr (.inl ⟨rfl, t, rfl, tick_of_ok hhalted hfault hrun⟩)
    | error f => exact .inr (.inr ⟨rfl, f, rfl, tick_of_error hhalted hfault hrun⟩)

/-- A tick answers the halted flag it leaves, or is fatal (D14). -/
theorem tick_answer (s : State) : (tick s).2 = .returned (tick s).1.halted ∨ ∃ f, (tick s).2 = .fatal f := by
  cases hfault : s.fault with
  | some f => exact .inr ⟨f, by rw [tick_of_faulted hfault]⟩
  | none =>
    obtain ⟨hhalted, htick⟩ | ⟨-, t, -, htick⟩ | ⟨-, f, -, htick⟩ := tick_cases hfault
    · exact .inl (by rw [htick, hhalted])
    · exact .inl (by rw [htick])
    · exact .inr ⟨f, by rw [htick]⟩

/-- Settles O40: a halted machine is a fixed point of the tick, and the answer of every tick. -/
theorem haltedTicksDoNothing : Obligations.HaltedTicksDoNothing := by
  refine ⟨fun s hhalted hfault => ?fixed, tick_answer⟩
  case fixed =>
    have htick := tick_of_halted hhalted hfault
    have hsame (k : Nat) : tickN k s = s := tickN_of_fixed (by rw [htick]) k
    exact ⟨by simp [step, hhalted, hfault], fun k => ⟨hsame k, by rw [hsame, htick]⟩⟩

/-- Settles O42: a fatal tick is the recorded error on the state it began with, a fixed point of the tick. -/
theorem fatalTicksCommitNothing : Obligations.FatalTicksCommitNothing := by
  intro s t f hfault h
  obtain ⟨-, htick⟩ | ⟨-, u, -, htick⟩ | ⟨hhalted, g, -, htick⟩ := tick_cases hfault
  · cases htick.symm.trans h
  · cases htick.symm.trans h
  · cases htick.symm.trans h
    have hagain : tick (s.raiseFatal f) = (s.raiseFatal f, .fatal f) := tick_of_faulted rfl
    have hsame (k : Nat) : tickN k (s.raiseFatal f) = s.raiseFatal f := tickN_of_fixed (by rw [hagain]) k
    exact ⟨rfl, hhalted, fun k => ⟨hsame k, by rw [hsame, hagain]⟩, rfl, congrFun (State.memRead_congr rfl rfl rfl)⟩

/-! ## The Fetch and Decode ticks (R104, R105) -/

/-- A Fetch stage at a legal `pc` latches the word there. -/
theorem fetchStage_of_memRead {w : Word} (hstage : s.cuState = .fetch) (h : s.memRead s.pc = .ok w) :
    fetchStage s = .ok (s.afterFetch w) := by
  rw [fetchStage_eq hstage, h]
  rfl

/-- A Fetch stage at any other `pc` is fatal with it. -/
theorem fetchStage_of_not_legal (hstage : s.cuState = .fetch) (h : ¬ s.Legal s.pc) :
    fetchStage s = .error (.addrRange s.pc) := by
  rw [fetchStage_eq hstage, State.memRead_of_not_legal h]
  rfl

/-- Settles O35: the Fetch stage at a legal and at an illegal `pc`. -/
theorem fetchTick : Obligations.FetchTick := by
  intro s ⟨hstage, hhalted, hfault⟩
  have hrun : runStage s = fetchStage s := by rw [runStage, hstage]
  refine ⟨fun hlegal => ?legal, fun hillegal => ?illegal⟩
  case legal =>
    obtain ⟨w, hread⟩ := State.exists_memRead hlegal
    have htick := tick_of_ok hhalted hfault (hrun.trans (fetchStage_of_memRead hstage hread))
    exact ⟨w, State.wordAt_of_memRead hread, htick.trans (congrArg (Prod.mk _ <| TickResult.returned ·) hhalted)⟩
  case illegal =>
    exact tick_of_error hhalted hfault (hrun.trans (fetchStage_of_not_legal hstage hillegal))

@[simp] theorem State.afterDecode_pc (o : Opcode) : (s.afterDecode o).pc = s.pc := by cases o <;> rfl
@[simp] theorem State.afterDecode_nextPc (o : Opcode) : (s.afterDecode o).nextPc = s.pc + 4 := by cases o <;> rfl
@[simp] theorem State.afterDecode_zf (o : Opcode) : (s.afterDecode o).zf = s.zf := by cases o <;> rfl
@[simp] theorem State.afterDecode_pf (o : Opcode) : (s.afterDecode o).pf = s.pf := by cases o <;> rfl
@[simp] theorem State.afterDecode_flagsValid (o : Opcode) : (s.afterDecode o).flagsValid = s.flagsValid := by
  cases o <;> rfl
@[simp] theorem State.afterDecode_memOut (o : Opcode) : (s.afterDecode o).memOut = s.memOut := by cases o <;> rfl
@[simp] theorem State.afterDecode_lastSelVideo (o : Opcode) : (s.afterDecode o).lastSelVideo = s.lastSelVideo := by
  cases o <;> rfl
@[simp] theorem State.afterDecode_aluResult (o : Opcode) : (s.afterDecode o).aluResult = s.aluResult := by
  cases o <;> rfl
@[simp] theorem State.afterDecode_mainSize (o : Opcode) : (s.afterDecode o).mainSize = s.mainSize := by cases o <;> rfl
@[simp] theorem State.afterDecode_main (o : Opcode) : (s.afterDecode o).main = s.main := by cases o <;> rfl

/-- Two states that agree on every architectural field are the same to a program and the interface. -/
theorem sameArchitecture_of_fields (hx : t.x = s.x) (hzf : t.zf = s.zf) (hpf : t.pf = s.pf)
    (hvalid : t.flagsValid = s.flagsValid) (hsize : t.mainSize = s.mainSize) (hmain : t.main = s.main)
    (hvid : t.vid = s.vid) (hpc : t.pc = s.pc) (hhalted : t.halted = s.halted) (htrace : t.trace = s.trace) :
    SameArchitecture s t :=
  ⟨fun r _ => congrFun (State.reg_congr hx) r, ⟨hzf, hpf, hvalid⟩, congrFun (State.byteAt_congr hsize hmain hvid), hpc,
    hhalted, htrace, hsize⟩

/-- The Fetch tick changes nothing a program or the interface sees. -/
theorem sameArchitecture_afterFetch (s : State) (w : Word) : SameArchitecture s (s.afterFetch w) :=
  sameArchitecture_of_fields rfl rfl rfl rfl rfl rfl rfl rfl rfl rfl

/-- The Decode tick changes nothing a program or the interface sees. -/
theorem sameArchitecture_afterDecode (s : State) (o : Opcode) : SameArchitecture s (s.afterDecode o) := by
  apply sameArchitecture_of_fields <;> simp

/-- The read latches, the destination and the immediate that Decode leaves, by the opcode's value. -/
theorem State.afterDecode_latches {o : Opcode} {c : Field5} (h : c = o.code) :
    (c ∉ [0, 16, 17] → (s.afterDecode o).rfOut1 = s.reg (fieldA s.memOut).toNat) ∧
    (c ∈ [3, 4, 5, 6, 15] → (s.afterDecode o).rfOut2 = s.reg (fieldB s.memOut).toNat) ∧
    (c ∈ [3, 4, 5, 6, 14] → (s.afterDecode o).destReg = fieldDest s.memOut) ∧
    (c ∈ [1, 2] → (s.afterDecode o).destReg = fieldA s.memOut ∧ (s.afterDecode o).imm = s.memOut.sshiftRight 10) := by
  subst h
  cases o with
  | addImmediate | subImmediate =>
    exact ⟨fun _ => rfl, fun h => absurd h (by decide), fun h => absurd h (by decide),
      fun _ => ⟨rfl, immField_eq_sshiftRight s.memOut⟩⟩
  | add | sub | nand | lshift => exact ⟨fun _ => rfl, fun _ => rfl, fun _ => rfl, fun h => absurd h (by decide)⟩
  | load => exact ⟨fun _ => rfl, fun h => absurd h (by decide), fun _ => rfl, fun h => absurd h (by decide)⟩
  | store => exact ⟨fun _ => rfl, fun _ => rfl, fun h => absurd h (by decide), fun h => absurd h (by decide)⟩
  | jumpToReg | branchIfZero | branchIfPositive =>
    exact ⟨fun _ => rfl, fun h => absurd h (by decide), fun h => absurd h (by decide), fun h => absurd h (by decide)⟩
  | nop | displayFlush | halt =>
    exact ⟨fun h => absurd (by decide) h, fun h => absurd h (by decide), fun h => absurd h (by decide),
      fun h => absurd h (by decide)⟩

/-- Settles O36: a Decode tick that returns has left `afterDecode` of the opcode in the latched word. -/
theorem decodeTick : Obligations.DecodeTick := by
  intro s t h hstage hhalted hfault htick
  have hrun := runStage_of_tick_returned hhalted hfault htick
  rw [runStage, hstage] at hrun
  cases hof : Opcode.ofCode (opcodeField s.memOut) with
  | none => cases (decodeStage_of_unassigned hof).symm.trans hrun
  | some o =>
    cases (decodeStage_of_assigned hof).symm.trans hrun
    have hcode : opcodeField s.memOut = o.code := (Opcode.code_of_ofCode hof).symm
    exact ⟨sameArchitecture_afterDecode s o, ⟨by simp, by simp⟩, by simpa using hfault, by simp, by simp,
      by simp [hcode], by simp, State.afterDecode_latches hcode⟩

/-! ## Which error each stage raises -/

/-- A value names no opcode exactly if it is one of the unassigned ones (30_encoding.md R84). -/
theorem Opcode.ofCode_eq_none {c : Field5} : Opcode.ofCode c = none ↔ c ∈ Claims.unassigned := by
  revert c
  decide

/-- A word decodes to nothing exactly if its opcode is unassigned. -/
theorem decodeWord_eq_none {w : Word} : decodeWord w = none ↔ opcodeField w ∈ Claims.unassigned :=
  Option.map_eq_none_iff.trans Opcode.ofCode_eq_none

/-- Write raises the missing write-back of the latched opcode alone. -/
theorem writeStage_error (h : writeStage s = .error f) : f = .writeNoWriteback s.opLatch := by
  by_cases harith : s.opLatch ∈ Claims.arithmetic
  · rw [writeStage_of_arithmetic harith, State.writeBack_eq] at h
    cases h
  · by_cases hload : s.opLatch = 14
    · rw [writeStage_of_load hload, State.writeBack_eq] at h
      cases h
    · rw [writeStage_of_other harith hload] at h
      cases h
      rfl

/-- Everything a stage that is fatal can raise, from every state (60_exceptions.md section 2). -/
theorem runStage_error_cases (h : runStage s = .error f) :
    (s.cuState = .fetch ∧ f = .addrRange s.pc) ∨
    (s.cuState = .decode ∧ Opcode.ofCode (opcodeField s.memOut) = none ∧ f = .badOpcode (opcodeField s.memOut)) ∨
    (s.cuState = .execute ∧ Opcode.ofCode s.opLatch = none ∧ f = .badOpcode s.opLatch) ∨
    (s.cuState = .execute ∧ s.opLatch ∈ [9, 10] ∧ s.flagsValid = false ∧ f = .undefinedSignal .flags) ∨
    (s.cuState = .execute ∧ s.opLatch ∈ [14, 15] ∧ f = .addrRange s.rfOut1) ∨
    (s.cuState = .write ∧ f = .writeNoWriteback s.opLatch) := by
  cases hstage : s.cuState with
  | fetch =>
    rw [runStage, hstage] at h
    exact .inl ⟨rfl, fetchStage_error hstage h⟩
  | decode =>
    rw [runStage, hstage] at h
    exact .inr (.inl ⟨rfl, decodeStage_error h⟩)
  | execute =>
    rw [runStage, hstage] at h
    obtain hbad | ⟨o, hop, hexec⟩ := executeStage_error h
    · exact .inr (.inr (.inl ⟨rfl, hbad⟩))
    · rw [hop]
      obtain ⟨rfl | rfl, hflags⟩ | ⟨rfl | rfl, hrange⟩ := executeOpcode_error hstage hop hexec
      · exact .inr (.inr (.inr (.inl ⟨rfl, by decide, hflags⟩)))
      · exact .inr (.inr (.inr (.inl ⟨rfl, by decide, hflags⟩)))
      · exact .inr (.inr (.inr (.inr (.inl ⟨rfl, by decide, hrange⟩))))
      · exact .inr (.inr (.inr (.inr (.inl ⟨rfl, by decide, hrange⟩))))
  | write =>
    rw [runStage, hstage] at h
    exact .inr (.inr (.inr (.inr (.inr ⟨rfl, writeStage_error h⟩))))

/-- No tick of an unfaulted machine raises an error that no row of the table holds. -/
theorem tick_ne_fatal (hfault : s.fault = none) (hrange : ∀ a, f ≠ .addrRange a) (hbad : ∀ op, f ≠ .badOpcode op)
    (hflags : f ≠ .undefinedSignal .flags) (hwrite : ∀ op, f ≠ .writeNoWriteback op) : (tick s).2 ≠ .fatal f := by
  intro h
  obtain ⟨-, e⟩ | ⟨-, -, e⟩ | ⟨-, -, e⟩ | ⟨-, -, -, e⟩ | ⟨-, -, e⟩ | ⟨-, e⟩ :=
    runStage_error_cases (runStage_of_tick_fatal hfault h)
  exacts [hrange _ e, hbad _ e, hbad _ e, hflags e, hrange _ e, hwrite _ e]

/-- Settles O4: decoding stops at the unassigned values, and so does the Decode stage. -/
theorem unassignedOpcodesAreFatalInDecode : Obligations.UnassignedOpcodesAreFatalInDecode := by
  refine ⟨fun _ => decodeWord_eq_none, fun s hstage hhalted hfault =>
    ⟨fun hmem => ?fatal, fun hmem => ?returns⟩⟩
  case fatal =>
    exact tick_of_error hhalted hfault <| by
      rw [runStage, hstage]; exact decodeStage_of_unassigned (Opcode.ofCode_eq_none.mpr hmem)
  case returns =>
    obtain ⟨o, ho⟩ := Option.ne_none_iff_exists'.mp (mt Opcode.ofCode_eq_none.mp hmem)
    have hrun : runStage s = .ok (s.afterDecode o) := by rw [runStage, hstage]; exact decodeStage_of_assigned ho
    rw [tick_of_ok hhalted hfault hrun, State.afterDecode_halted, hhalted]

/-- Settles O8: the Decode stage of an assigned opcode answers, and otherwise the error is the opcode. -/
theorem decodeReadsOnlyDefinedFields : Obligations.DecodeReadsOnlyDefinedFields := fun _ _ h =>
  ⟨(decodeStage_error h).2, Opcode.ofCode_eq_none.mp (decodeStage_error h).1⟩

/-- Settles O13: the bus itself, its drivers, and the errors a tick can raise. -/
theorem busContentionIsUnreachable : Obligations.BusContentionIsUnreachable :=
  ⟨fun _ => Bus.resolve_eq_contention, fun s => ⟨addressDrivers_length_le s, fun hfault =>
    tick_ne_fatal hfault (fun _ => nofun) (fun _ => nofun) nofun fun _ => nofun⟩⟩

/-- Settles O43: of the errors of the stages, the invariant excludes an unassigned opcode in Execute and an opcode
without write-back in Write. -/
theorem reachableFatalErrors : Obligations.ReachableFatalErrors := by
  intro s f hinv hfault h
  have hrun := runStage_of_tick_fatal hfault h
  obtain ⟨-, -, -, -, hstageOk, -, -⟩ := hinv
  obtain hfetch | ⟨hstage, hnone, e⟩ | ⟨hstage, hnone, -⟩ | hbranch | haccess | ⟨-, rfl⟩ := runStage_error_cases hrun
  · exact .inl hfetch
  · exact .inr (.inl ⟨hstage, e, Opcode.ofCode_eq_none.mp hnone⟩)
  · have hsome := (hstageOk.1 hstage).1
    rw [hnone] at hsome
    cases hsome
  · exact .inr (.inr (.inl hbranch))
  · exact .inr (.inr (.inr haccess))
  · exact absurd hrun (runStage_ne_writeNoWriteback hstageOk s.opLatch)

/-! ## Which tick changes what (D7, D25) -/

/-- What every Execute that answers does to the flags, the memory, the trace and the capacity: the row of the table that
owns each of them may change it, and no other. -/
structure ExecuteEffect (o : Opcode) (s t : State) : Prop where
  mainSize : t.mainSize = s.mainSize
  flags : SameFlags s t ∨ o.code ∈ Claims.arithmetic ∧ ∃ r, t.zf = zeroFlag r ∧ t.pf = positiveFlag r
  memory : (t.main = s.main ∧ t.vid = s.vid) ∨
    o = .store ∧ ∃ a v m, s.memWrite a v = .ok m ∧ t.main = m.main ∧ t.vid = m.vid
  trace : t.trace = s.trace ∨ o = .displayFlush ∧ t.trace = s.trace ++ [.render s.vid]

/-- A memory write leaves the capacity, the flags and the trace. -/
theorem State.memWrite_frame {a v : Word} (h : s.memWrite a v = .ok t) :
    t.mainSize = s.mainSize ∧ SameFlags s t ∧ t.trace = s.trace := by
  obtain ⟨-, rfl⟩ | ⟨-, -, rfl⟩ := State.memWrite_cases h <;> exact ⟨rfl, ⟨rfl, rfl, rfl⟩, rfl⟩

/-- One case per group of rows of the Execute table. -/
theorem executeEffect {o : Opcode} (h : executeOpcode o s = .ok t) : ExecuteEffect o s t := by
  cases o with
  | nop | jumpToReg | halt =>
    cases h
    exact ⟨rfl, .inl ⟨rfl, rfl, rfl⟩, .inl ⟨rfl, rfl⟩, .inl rfl⟩
  | addImmediate | subImmediate | add | sub | nand | lshift =>
    cases h
    exact ⟨rfl, .inr ⟨by decide, _, rfl, rfl⟩, .inl ⟨rfl, rfl⟩, .inl rfl⟩
  | displayFlush =>
    cases h
    exact ⟨rfl, .inl ⟨rfl, rfl, rfl⟩, .inl ⟨rfl, rfl⟩, .inr ⟨rfl, rfl⟩⟩
  | branchIfZero | branchIfPositive =>
    obtain ⟨taken, -, hbranch⟩ := exists_of_bind_eq_ok h
    cases hbranch
    exact ⟨rfl, .inl ⟨rfl, rfl, rfl⟩, .inl ⟨rfl, rfl⟩, .inl rfl⟩
  | load =>
    obtain ⟨a, -, hload⟩ := exists_of_bind_eq_ok h
    obtain ⟨w, -, hlatch⟩ := exists_of_bind_eq_ok hload
    cases hlatch
    exact ⟨rfl, .inl ⟨rfl, rfl, rfl⟩, .inl ⟨rfl, rfl⟩, .inl rfl⟩
  | store =>
    obtain ⟨a, -, hstore⟩ := exists_of_bind_eq_ok h
    obtain ⟨m, hmem, hmove⟩ := exists_of_bind_eq_ok hstore
    obtain ⟨hsize, hflags, htrace⟩ := State.memWrite_frame hmem
    cases hmove
    exact ⟨hsize, .inl hflags, .inr ⟨rfl, a, s.rfOut2, m, hmem, rfl, rfl⟩, .inl htrace⟩

/-- A Write stage that answers has put one word in the register file and returned to Fetch. -/
theorem exists_put_of_writeStage (h : writeStage s = .ok t) :
    ∃ v, t = { s.setX (RegFile.put s.x s.destReg.toNat v) with cuState := .fetch } := by
  obtain ⟨v, hcommit⟩ := exists_writeBack_of_writeStage h
  exact ⟨v, Except.ok.inj (hcommit.symm.trans (State.writeBack_eq s v))⟩

/-- What a tick outside Execute, and a fatal one, leaves as it was: the flags, the memory, the trace, `pc` and the
capacity. -/
structure Untouched (s t : State) : Prop where
  flags : SameFlags s t
  main : t.main = s.main
  vid : t.vid = s.vid
  trace : t.trace = s.trace
  pc : t.pc = s.pc
  mainSize : t.mainSize = s.mainSize

/-- A memory both of whose instances are as they were reads as it did. -/
theorem sameMemory_of_main_vid (hsize : t.mainSize = s.mainSize) (h : t.main = s.main ∧ t.vid = s.vid) :
    SameMemory s t := congrFun (State.byteAt_congr hsize h.1 h.2)

/-- A tick touches none of them, or it is an Execute tick that answers. -/
theorem tick_untouched_or_execute (s : State) :
    Untouched s (tick s).1 ∨
      s.cuState = .execute ∧ ∃ o : Opcode, s.opLatch = o.code ∧ executeOpcode o s = .ok (tick s).1 := by
  obtain hsame | ⟨f, hfatal⟩ | hrun := tick_fst_cases s
  · rw [hsame]
    exact .inl ⟨⟨rfl, rfl, rfl⟩, rfl, rfl, rfl, rfl, rfl⟩
  · rw [hfatal]
    exact .inl ⟨⟨rfl, rfl, rfl⟩, rfl, rfl, rfl, rfl, rfl⟩
  · obtain ⟨-, w, -, e⟩ | ⟨-, o, -, e⟩ | hexecute | ⟨-, hwrite⟩ := runStage_cases hrun
    · rw [e]
      exact .inl ⟨⟨rfl, rfl, rfl⟩, rfl, rfl, rfl, rfl, rfl⟩
    · rw [e]
      exact .inl ⟨⟨by simp, by simp, by simp⟩, by simp, by simp, by simp, by simp, by simp⟩
    · exact .inr hexecute
    · obtain ⟨v, e⟩ := exists_put_of_writeStage hwrite
      rw [e]
      exact .inl ⟨⟨rfl, rfl, rfl⟩, rfl, rfl, rfl, rfl, rfl⟩

/-- Settles O39: outside Execute a tick touches nothing of these, and in Execute the row of the opcode decides. -/
theorem whichTickChangesWhat : Obligations.WhichTickChangesWhat := by
  intro s
  obtain h | ⟨hstage, o, hop, hexec⟩ := tick_untouched_or_execute s
  · exact ⟨fun _ => h.flags, fun _ => sameMemory_of_main_vid h.mainSize ⟨h.main, h.vid⟩, fun _ => h.trace,
      fun _ => h.pc, h.mainSize⟩
  · have heffect := executeEffect hexec
    refine ⟨fun hno => ?flags, fun hno => ?memory, fun hno => ?trace, fun hno => absurd hstage hno, heffect.mainSize⟩
    case flags => exact heffect.flags.resolve_right fun h => hno ⟨hstage, hop ▸ h.1⟩
    case memory =>
      refine sameMemory_of_main_vid heffect.mainSize (heffect.memory.resolve_right fun ⟨hstore, _⟩ => ?_)
      exact hno ⟨hstage, by rw [hop, hstore]; rfl⟩
    case trace =>
      exact heffect.trace.resolve_right fun ⟨hflush, _⟩ => hno ⟨hstage, by rw [hop, hflush]; rfl⟩

/-! ## The halted flag (10_state.md R24) -/

/-- A stage that answers leaves the recorded fault. -/
theorem runStage_fault (h : runStage s = .ok t) : t.fault = s.fault := by
  obtain ⟨-, w, -, rfl⟩ | ⟨-, o, -, rfl⟩ | ⟨-, o, -, hexec⟩ | ⟨-, hwrite⟩ := runStage_cases h
  · rfl
  · exact State.afterDecode_fault o
  · exact (executeOutcome hexec).fault
  · obtain ⟨v, rfl⟩ := exists_put_of_writeStage hwrite
    rfl

/-- The one stage that drives the halted flag true is the Execute of `halt`, and it returns to Fetch. -/
theorem runStage_sets_halted (h : runStage s = .ok t) (hs : s.halted = false) (ht : t.halted = true) :
    s.cuState = .execute ∧ s.opLatch = 17 ∧ t.cuState = .fetch := by
  obtain ⟨-, w, -, rfl⟩ | ⟨-, o, -, rfl⟩ | ⟨hstage, o, hop, hexec⟩ | ⟨-, hwrite⟩ := runStage_cases h
  · cases hs.symm.trans ht
  · rw [State.afterDecode_halted, hs] at ht
    cases ht
  · have hout := executeOutcome hexec
    by_cases hhalt : o = .halt
    · subst hhalt
      exact ⟨hstage, hop, hout.cuState⟩
    · rw [hout.halted hhalt, hs] at ht
      cases ht
  · obtain ⟨v, rfl⟩ := exists_put_of_writeStage hwrite
    cases hs.symm.trans ht

/-- A halted machine stays as it is, faulted or not. -/
theorem tick_fst_of_halted (h : s.halted = true) : (tick s).1 = s := by
  cases hfault : s.fault with
  | some f => rw [tick_of_faulted hfault]
  | none => rw [tick_of_halted h hfault]

/-- A tick that sets the halted flag has run the stage that does, and answers true. -/
theorem tick_sets_halted (hs : s.halted = false) (ht : (tick s).1.halted = true) :
    s.fault = none ∧ runStage s = .ok (tick s).1 ∧ (tick s).2 = .returned true := by
  cases hfault : s.fault with
  | some f =>
    rw [tick_of_faulted hfault] at ht
    cases hs.symm.trans ht
  | none =>
    obtain ⟨hhalted, -⟩ | ⟨-, t, hrun, htick⟩ | ⟨-, f, -, htick⟩ := tick_cases hfault
    · cases hs.symm.trans hhalted
    · rw [htick] at ht ⊢
      exact ⟨rfl, hrun, congrArg TickResult.returned ht⟩
    · rw [htick] at ht
      cases hs.symm.trans ht

/-- Settles O41: the stage that sets the flag, and the halted machine as a fixed point of the tick. -/
theorem haltedFlagIsSetOnlyByHalt : Obligations.HaltedFlagIsSetOnlyByHalt := by
  refine ⟨rfl, fun s hs ht => ?set, fun s k h => ?kept, fun s k h hfault => ?answer⟩
  case set =>
    obtain ⟨-, hrun, hanswer⟩ := tick_sets_halted hs ht
    obtain ⟨hstage, hop, -⟩ := runStage_sets_halted hrun hs ht
    exact ⟨hstage, hop, hanswer⟩
  case kept => rw [tickN_of_fixed (tick_fst_of_halted h), h]
  case answer => rw [tickN_of_fixed (tick_fst_of_halted h), tick_of_halted h hfault]

/-- A tick keeps a halted machine at rest at Fetch without a fault. -/
theorem tick_haltOk (h : s.HaltOk) : (tick s).1.HaltOk := by
  intro ht
  cases hs : s.halted with
  | true =>
    rw [tick_fst_of_halted hs]
    exact h hs
  | false =>
    obtain ⟨hfault, hrun, -⟩ := tick_sets_halted hs ht
    exact ⟨(runStage_sets_halted hrun hs ht).2.2, (runStage_fault hrun).trans hfault⟩

/-- What every tick keeps, every number of ticks keeps. -/
theorem tickN_keeps {P : State → Prop} (htick : ∀ s, P s → P (tick s).1) (k : Nat) (h : P s) : P (tickN k s) := by
  induction k generalizing s with
  | zero => exact h
  | succ k ih => exact ih (htick s h)

/-- Once a tick leaves the machine as it is, so does every later one. -/
theorem tickN_eq_of_fixed {j k : Nat} (h : (tick (tickN j s)).1 = tickN j s) (hjk : j ≤ k) :
    tickN k s = tickN j s := by
  obtain ⟨d, rfl⟩ := Nat.exists_eq_add_of_le hjk
  rw [tickN_add, tickN_of_fixed h]

/-- Settles O44: the run stands still at whichever end comes first, and that state is not both. -/
theorem runEndsInOneWay : Obligations.RunEndsInOneWay := by
  intro s j k f hok ⟨hhalted, hfaulted⟩
  rw [HaltedAfter] at hhalted
  rw [FaultedAfter] at hfaulted
  obtain ⟨-, hnone⟩ := tickN_keeps (fun _ => tick_haltOk) j hok hhalted
  have hsame : tickN k s = tickN j s := by
    obtain hjk | hkj := Nat.le_total j k
    · exact tickN_eq_of_fixed (tick_fst_of_halted hhalted) hjk
    · exact (tickN_eq_of_fixed (tick_fst_of_faulted hfaulted) hkj).symm
  rw [hsame, hnone] at hfaulted
  cases hfaulted

end Sys2Proof.Machine


/-! PROOF. What each instruction does (41_arithmetic.md, 42_control_transfer.md, 43_load_store.md, 44_system.md): the
register+immediate form, the branches, `load`, `store` and `halt`; and over all fourteen, the latches an instruction
leaves and the faults it can raise. -/

namespace Sys2Proof.Machine

variable {s t : State}

/-! ## Arithmetic -/

/-- Settles O20: the 3-register form with the ALU's difference. -/
theorem subInstruction : Obligations.SubInstruction :=
  ⟨fun _ hop => decodeWord_of_code (o := .sub) hop, threeRegResult_of_exec .sub .sub fun _ _ _ _ => rfl,
    fun d a b => takesTicks (.sub d a b), by decide⟩

/-- Settles O22: the 3-register form with the ALU's shift, whose count is taken modulo 32. -/
theorem lshiftInstruction : Obligations.LshiftInstruction := by
  have hshift : aluValue .lshift = fun a b : Word => a <<< (b.toNat % 32) := funext₂ aluValue_lshift
  exact ⟨fun _ hop => decodeWord_of_code (o := .lshift) hop,
    hshift ▸ threeRegResult_of_exec .lshift .lshift fun _ _ _ _ => rfl, fun d a b => takesTicks (.lshift d a b),
    by decide⟩

/-- A register+immediate instruction whose meaning is `runRegImm` writes the ALU's result and its flags, and nothing
else. -/
theorem regImmResult_of_exec {mk : Nat → Int → Instr} (o : Opcode) (f : AluOp)
    (hexec : ∀ a imm s, exec (mk a imm) s = settle (runRegImm o f a imm s)) : Claims.RegImmResult mk (aluValue f) := by
  intro s a imm ha _ _
  refine ⟨_, (hexec a imm s).trans (congrArg settle (runRegImm_of_lt o f imm ha)), ?written, State.reg_zero _,
    flagsOf_of_latched rfl rfl rfl, rfl, rfl, ?others, ?memory, ⟨rfl, rfl⟩, rfl, rfl, rfl, rfl⟩
  case written => exact State.reg_of_put ha rfl
  case others => exact sameRegsExcept_of_put ha rfl
  case memory => exact congrFun (State.byteAt_congr rfl rfl rfl)

/-- Settles O23: the register+immediate form with the ALU's sum. -/
theorem addImmediateInstruction : Obligations.AddImmediateInstruction :=
  ⟨fun _ hop => decodeWord_of_code (o := .addImmediate) hop, regImmResult_of_exec .addImmediate .add fun _ _ _ => rfl,
    fun a imm => takesTicks (.addImmediate a imm)⟩

/-- Settles O24: the register+immediate form with the ALU's difference. -/
theorem subImmediateInstruction : Obligations.SubImmediateInstruction :=
  ⟨fun _ hop => decodeWord_of_code (o := .subImmediate) hop, regImmResult_of_exec .subImmediate .sub fun _ _ _ => rfl,
    fun a imm => takesTicks (.subImmediate a imm)⟩

/-! ## Branches -/

/-- The state in which the Execute stage of a jump or branch finds the machine: the opcode and register A latched. -/
def State.latchedOneReg (s : State) (o : Opcode) (a : Nat) : State :=
  { s.latchOpcode o with rfOut1 := s.reg a, rfOut2 := 0 }

/-- A branch through a register that exists is its Execute stage on the latched operand, on either flag. -/
theorem exec_branchIfZero_of_lt (s : State) {a : Nat} (ha : a < 32) :
    exec (.branchIfZero a) s = settle (executeBranchIfZero (s.latchedOneReg .branchIfZero a)) := by
  change execBranchIfZero a s = _
  rw [execBranchIfZero, latchOneReg_of_lt .branchIfZero ha]
  rfl

theorem exec_branchIfPositive_of_lt (s : State) {a : Nat} (ha : a < 32) :
    exec (.branchIfPositive a) s = settle (executeBranchIfPositive (s.latchedOneReg .branchIfPositive a)) := by
  change execBranchIfPositive a s = _
  rw [execBranchIfPositive, latchOneReg_of_lt .branchIfPositive ha]
  rfl

/-- With flags in the latch a branch goes by its own flag. -/
theorem exec_branchIfZero_of_valid {a : Nat} (ha : a < 32) (h : s.flagsValid = true) :
    exec (.branchIfZero a) s = .next (executeBranch s.zf (s.latchedOneReg .branchIfZero a)) := by
  rw [exec_branchIfZero_of_lt s ha, executeBranchIfZero, State.readZero_of_valid (by exact h)]
  rfl

theorem exec_branchIfPositive_of_valid {a : Nat} (ha : a < 32) (h : s.flagsValid = true) :
    exec (.branchIfPositive a) s = .next (executeBranch s.pf (s.latchedOneReg .branchIfPositive a)) := by
  rw [exec_branchIfPositive_of_lt s ha, executeBranchIfPositive, State.readPositive_of_valid (by exact h)]
  rfl

/-- With no flags in the latch a branch is fatal. -/
theorem exec_branchIfZero_of_invalid {a : Nat} (ha : a < 32) (h : s.flagsValid = false) :
    exec (.branchIfZero a) s = .fault (.undefinedSignal .flags) := by
  rw [exec_branchIfZero_of_lt s ha, executeBranchIfZero, State.readZero_of_invalid (by exact h)]
  rfl

theorem exec_branchIfPositive_of_invalid {a : Nat} (ha : a < 32) (h : s.flagsValid = false) :
    exec (.branchIfPositive a) s = .fault (.undefinedSignal .flags) := by
  rw [exec_branchIfPositive_of_lt s ha, executeBranchIfPositive, State.readPositive_of_invalid (by exact h)]
  rfl

/-- A branch changes `pc` and nothing else, taken or not. -/
theorem onlyPc_executeBranch (taken : Bool) (s : State) (o : Opcode) (a : Nat) :
    Claims.OnlyPc s (executeBranch taken (s.latchedOneReg o a)) :=
  onlyPc_of_latchOpcode s o (s.reg a) 0 (if taken then s.reg a else s.pc + 4)

/-- Settles O26: the branch on the zero flag, and the empty latch. -/
theorem branchIfZeroInstruction : Obligations.BranchIfZeroInstruction :=
  ⟨fun _ hop => decodeWord_of_code (o := .branchIfZero) hop,
    fun s a ha => ⟨fun h => ⟨_, exec_branchIfZero_of_valid ha h, rfl, onlyPc_executeBranch s.zf s .branchIfZero a⟩,
      exec_branchIfZero_of_invalid ha⟩,
    fun a => takesTicks (.branchIfZero a)⟩

/-- Settles O27: the branch on the positive flag, and the empty latch. -/
theorem branchIfPositiveInstruction : Obligations.BranchIfPositiveInstruction :=
  ⟨fun _ hop => decodeWord_of_code (o := .branchIfPositive) hop,
    fun s a ha =>
      ⟨fun h => ⟨_, exec_branchIfPositive_of_valid ha h, rfl, onlyPc_executeBranch s.pf s .branchIfPositive a⟩,
        exec_branchIfPositive_of_invalid ha⟩,
    fun a => takesTicks (.branchIfPositive a)⟩

/-! ## Load and store -/

/-- What `load` leaves when its address reads as `w`. -/
def State.afterLoad (s : State) (d a : Nat) (w : Word) : State :=
  { s.latchOpcode .load with
    destReg := regField d
    rfOut1 := s.reg a
    rfOut2 := 0
    memOut := w
    lastSelVideo := s.selectsVideo (s.reg a)
    pc := s.pc + 4
    x := RegFile.put s.x d w
    cuState := .fetch }

/-- What `store` leaves when its write answers `m`. -/
def State.afterStore (s : State) (a b : Nat) (m : State) : State :=
  { s.latchOpcode .store with
    rfOut1 := s.reg a
    rfOut2 := s.reg b
    main := m.main
    vid := m.vid
    pc := s.pc + 4
    cuState := .fetch }

section LoadStore
variable {d a b : Nat}

/-- `load` is its Execute on the latched operands and its Write. -/
theorem exec_load_of_lt (s : State) (hd : d < 32) (ha : a < 32) :
    exec (.load d a) s = settle ((s.memRead (s.reg a)).map (s.afterLoad d a)) := by
  change execLoad d a s = _
  rw [execLoad, latchLoad_of_lt .load hd ha]
  have hread : State.memRead { s.latchOpcode .load with destReg := regField d, rfOut1 := s.reg a, rfOut2 := 0 } =
      s.memRead := State.memRead_congr rfl rfl rfl
  simp only [bind, Except.bind, executeLoad, hread]
  cases s.memRead (s.reg a) with
  | error f => rfl
  | ok w =>
    simp only [writeMemOut, State.writeBack_eq, regField_toNat hd]
    rfl

/-- The same write to a machine with the same memory puts the same word. -/
theorem State.memWrite_congr (hsize : t.mainSize = s.mainSize) (hmain : t.main = s.main) (hvid : t.vid = s.vid)
    (addr v : Word) :
    t.memWrite addr v = (s.memWrite addr v).map fun m => { t with main := m.main, vid := m.vid } := by
  rw [State.memWrite, State.memWrite, State.locate_congr hsize]
  cases s.locate addr with
  | error f => rfl
  | ok p =>
    obtain ⟨r, o⟩ := p
    cases r with
    | main => simp [Except.map, State.setMain, hmain, hvid]
    | video => simp [Except.map, State.setVid, hmain, hvid]

/-- `store` is its Execute on the latched operands. -/
theorem exec_store_of_lt (s : State) (ha : a < 32) (hb : b < 32) :
    exec (.store a b) s = settle ((s.memWrite (s.reg a) (s.reg b)).map (s.afterStore a b)) := by
  change execStore a b s = _
  rw [execStore, latchStore_of_lt .store ha hb]
  have hwrite := State.memWrite_congr (s := s)
    (t := { s.latchOpcode .store with rfOut1 := s.reg a, rfOut2 := s.reg b }) rfl rfl rfl (s.reg a) (s.reg b)
  simp only [bind, Except.bind, executeStore, hwrite]
  cases s.memWrite (s.reg a) (s.reg b) <;> rfl

/-- A load whose address reads completes. -/
theorem exec_load_of_memRead {w : Word} (hd : d < 32) (ha : a < 32) (h : s.memRead (s.reg a) = .ok w) :
    exec (.load d a) s = .next (s.afterLoad d a w) := by
  rw [exec_load_of_lt s hd ha, h]
  rfl

/-- A load at an illegal address is fatal with it. -/
theorem exec_load_of_not_legal (hd : d < 32) (ha : a < 32) (h : ¬ s.Legal (s.reg a)) :
    exec (.load d a) s = .fault (.addrRange (s.reg a)) := by
  rw [exec_load_of_lt s hd ha, State.memRead_of_not_legal h]
  rfl

/-- Everything a load can do. -/
theorem exec_load_cases (s : State) (hd : d < 32) (ha : a < 32) :
    (∃ w, s.memRead (s.reg a) = .ok w ∧ exec (.load d a) s = .next (s.afterLoad d a w)) ∨
      ¬ s.Legal (s.reg a) ∧ exec (.load d a) s = .fault (.addrRange (s.reg a)) := by
  by_cases hlegal : s.Legal (s.reg a)
  · obtain ⟨w, hread⟩ := State.exists_memRead hlegal
    exact .inl ⟨w, hread, exec_load_of_memRead hd ha hread⟩
  · exact .inr ⟨hlegal, exec_load_of_not_legal hd ha hlegal⟩

/-- A store whose write answers completes. -/
theorem exec_store_of_memWrite {m : State} (ha : a < 32) (hb : b < 32) (h : s.memWrite (s.reg a) (s.reg b) = .ok m) :
    exec (.store a b) s = .next (s.afterStore a b m) := by
  rw [exec_store_of_lt s ha hb, h]
  rfl

/-- A store at an illegal address is fatal with it. -/
theorem exec_store_of_not_legal (ha : a < 32) (hb : b < 32) (h : ¬ s.Legal (s.reg a)) :
    exec (.store a b) s = .fault (.addrRange (s.reg a)) := by
  rw [exec_store_of_lt s ha hb, State.memWrite_of_not_legal _ h]
  rfl

/-- Everything a store can do. -/
theorem exec_store_cases (s : State) (ha : a < 32) (hb : b < 32) :
    (∃ m, s.memWrite (s.reg a) (s.reg b) = .ok m ∧ exec (.store a b) s = .next (s.afterStore a b m)) ∨
      ¬ s.Legal (s.reg a) ∧ exec (.store a b) s = .fault (.addrRange (s.reg a)) := by
  by_cases hlegal : s.Legal (s.reg a)
  · obtain ⟨m, hwrite⟩ := State.exists_memWrite (s.reg b) hlegal
    exact .inl ⟨m, hwrite, exec_store_of_memWrite ha hb hwrite⟩
  · exact .inr ⟨hlegal, exec_store_of_not_legal ha hb hlegal⟩

/-- A store translates addresses as its write did. -/
theorem State.mainSize_afterStore {m : State} (h : s.memWrite (s.reg a) (s.reg b) = .ok m) :
    (s.afterStore a b m).mainSize = m.mainSize := (State.memWrite_frame h).1.symm

/-- Settles O28: the word at the address in the register, the frame, and the fatal address. -/
theorem loadInstruction : Obligations.LoadInstruction := by
  refine ⟨fun _ hop => decodeWord_of_code (o := .load) hop, fun s d a hd ha =>
    ⟨fun hlegal => ?legal, exec_load_of_not_legal hd ha⟩, fun d a => takesTicks (.load d a)⟩
  case legal =>
    obtain ⟨w, hread⟩ := State.exists_memRead hlegal
    exact ⟨w, _, State.wordAt_of_memRead hread, exec_load_of_memRead hd ha hread, State.reg_of_put hd rfl,
      State.reg_zero _, rfl, decide_eq_true_iff, rfl, rfl, sameRegsExcept_of_put hd rfl, ⟨rfl, rfl, rfl⟩,
      sameMemory_of_main_vid rfl ⟨rfl, rfl⟩, rfl, rfl, rfl, rfl⟩

/-- Settles O29: the memory round trip at the address in the register, the frame, and the fatal address. -/
theorem storeInstruction : Obligations.StoreInstruction := by
  refine ⟨fun _ hop => decodeWord_of_code (o := .store) hop, fun s a b ha hb hm =>
    ⟨fun hlegal => ?legal, exec_store_of_not_legal ha hb⟩, fun a b => takesTicks (.store a b)⟩
  case legal =>
    obtain ⟨m, hwrite⟩ := State.exists_memWrite (s.reg b) hlegal
    obtain ⟨-, hword, hother, -, -⟩ := memoryRoundTrip s m (s.reg a) (s.reg b) hm hwrite
    have hbytes : (s.afterStore a b m).byteAt = m.byteAt :=
      State.byteAt_congr (State.mainSize_afterStore hwrite) rfl rfl
    refine ⟨_, exec_store_of_memWrite ha hb hwrite, ?_, fun c hc => (congrFun hbytes c).trans (hother c hc), rfl, rfl,
      fun r _ => congrFun (State.reg_congr rfl) r, ⟨rfl, rfl, rfl⟩, ⟨rfl, rfl⟩, rfl, rfl, rfl, rfl⟩
    simpa only [Claims.WordAt, hbytes] using hword

/-- Settles O51: the word just stored is read back at the next `pc`. -/
theorem storeIsSeenByTheNextFetch : Obligations.StoreIsSeenByTheNextFetch := by
  intro s t a b i hm ha hb hexec hpc hword
  obtain ⟨m, hwrite, e⟩ | ⟨-, e⟩ := exec_store_cases s ha hb
  · cases e.symm.trans hexec
    have hread : (s.afterStore a b m).memRead = m.memRead :=
      State.memRead_congr (State.mainSize_afterStore hwrite) rfl rfl
    rw [State.Fetches, hpc, hread, State.memRead_of_memWrite hm hwrite]
    exact hword
  · cases e.symm.trans hexec

end LoadStore

/-! ## Halt -/

/-- `halt` completes in every state. -/
theorem exec_halt (s : State) : exec .halt s = .next (executeHalt (s.latchOpcode .halt)) := rfl

/-- A tick that leaves no fault answers the halted flag it leaves. -/
theorem tick_snd_of_no_fault (h : (tick s).1.fault = none) : (tick s).2 = .returned (tick s).1.halted := by
  cases hfault : s.fault with
  | some f =>
    rw [tick_of_faulted hfault, hfault] at h
    cases h
  | none =>
    obtain ⟨hhalted, htick⟩ | ⟨-, t, -, htick⟩ | ⟨-, f, -, htick⟩ := tick_cases hfault
    · rw [htick, hhalted]
    · rw [htick]
    · rw [htick] at h
      cases h

/-- The ticks of `halt`: two that leave the machine running, a third that halts it. -/
theorem tickN_of_halt (hready : s.Ready) (hfetches : s.Fetches .halt) :
    ((tickN 1 s).halted = false ∧ (tickN 1 s).fault = none) ∧ ((tickN 2 s).halted = false ∧ (tickN 2 s).fault = none) ∧
      ((tickN 3 s).halted = true ∧ (tickN 3 s).fault = none) := by
  obtain ⟨w, htick1, htick2, -⟩ := step_of_fetches hready hfetches
  obtain ⟨-, hhalted, hfault⟩ := hready
  rw [Instr.opcode] at htick2
  have htick3 : tickN 1 ((s.afterFetch w).afterDecode .halt) = executeHalt ((s.afterFetch w).afterDecode .halt) :=
    tickN_one_of_executeOpcode (o := .halt) (State.afterDecode_cuState _) (State.afterDecode_opLatch _)
      (by simpa using hhalted) (by simpa using hfault) rfl
  rw [tickN_add 2 1, htick2, htick1, htick3]
  exact ⟨⟨hhalted, hfault⟩, ⟨hhalted, hfault⟩, rfl, hfault⟩

/-- Settles O32: the frame of `halt`, and the answers of its ticks and of every later one. -/
theorem haltInstruction : Obligations.HaltInstruction := by
  refine ⟨fun _ hop => decodeWord_of_code (o := .halt) hop, by decide, fun s => ?effect, takesTicks .halt,
    fun s hready hfetches => ?answers⟩
  case effect =>
    exact ⟨_, exec_halt s, rfl, rfl, fun r _ => congrFun (State.reg_congr rfl) r, ⟨rfl, rfl, rfl⟩,
      sameMemory_of_main_vid rfl ⟨rfl, rfl⟩, ⟨rfl, rfl⟩, rfl, rfl, rfl⟩
  case answers =>
    obtain ⟨⟨hhalted1, hfault1⟩, ⟨hhalted2, hfault2⟩, hhalted3, hfault3⟩ := tickN_of_halt hready hfetches
    have htick2 : tickN 2 s = (tick (tickN 1 s)).1 := rfl
    have htick3 : tickN 3 s = (tick (tickN 2 s)).1 := rfl
    refine ⟨(tick_snd_of_no_fault hfault1).trans (congrArg _ hhalted1),
      (tick_snd_of_no_fault hfault2).trans (congrArg _ hhalted2), fun k hk => ?_⟩
    obtain rfl | hlater : k = 2 ∨ 3 ≤ k := by omega
    · exact (tick_snd_of_no_fault hfault3).trans (congrArg _ hhalted3)
    · rw [tickN_eq_of_fixed (tick_fst_of_halted hhalted3) hlater, tick_of_halted hhalted3 hfault3]

/-! ## Every instruction -/

theorem wf_threeReg {d a b : Nat} (h : (regOk d && regOk a && regOk b) = true) : d < 32 ∧ a < 32 ∧ b < 32 := by
  simpa [regOk_iff, and_assoc] using h

theorem wf_twoReg {a b : Nat} (h : (regOk a && regOk b) = true) : a < 32 ∧ b < 32 := by
  simpa [regOk_iff] using h

theorem wf_regImm {a : Nat} {imm : Int} (h : (regOk a && immOk imm) = true) : a < 32 :=
  regOk_iff.mp (Bool.and_eq_true_iff.mp h).1

/-- Everything a branch can answer: its Execute's state with flags in the latch, or the fatal error without. -/
theorem exec_branch_cases {i : Instr} {a : Nat} {r : Host.Outcome State Fault Refusal} (ha : a < 32)
    (h : exec i s = r) (hi : i = .branchIfZero a ∨ i = .branchIfPositive a) :
    (∃ taken, r = .next (executeBranch taken (s.latchedOneReg i.opcode a))) ∨
      s.flagsValid = false ∧ r = .fault (.undefinedSignal .flags) := by
  cases hvalid : s.flagsValid with
  | false =>
    obtain rfl | rfl := hi
    · exact .inr ⟨rfl, h.symm.trans (exec_branchIfZero_of_invalid ha hvalid)⟩
    · exact .inr ⟨rfl, h.symm.trans (exec_branchIfPositive_of_invalid ha hvalid)⟩
  | true =>
    obtain rfl | rfl := hi
    · exact .inl ⟨_, h.symm.trans (exec_branchIfZero_of_valid ha hvalid)⟩
    · exact .inl ⟨_, h.symm.trans (exec_branchIfPositive_of_valid ha hvalid)⟩

/-- Settles O33: the latches of each form's net effect. -/
theorem scratchLatchesAfterAnInstruction : Obligations.ScratchLatchesAfterAnInstruction := by
  intro s t i hwf h
  cases i with
  | nop | displayFlush | halt =>
    cases h
    exact ⟨rfl, rfl, rfl, rfl, rfl, rfl, rfl, rfl, rfl⟩
  | add d a b | sub d a b | nand d a b =>
    obtain ⟨hd, ha, hb⟩ := wf_threeReg hwf
    cases (congrArg settle (runThreeReg_of_lt _ _ hd ha hb)).symm.trans h
    exact ⟨rfl, rfl, rfl, rfl, rfl, rfl, rfl, rfl, rfl⟩
  | lshift d a b =>
    obtain ⟨hd, ha, hb⟩ := wf_threeReg hwf
    cases (congrArg settle (runThreeReg_of_lt _ _ hd ha hb)).symm.trans h
    exact ⟨rfl, rfl, rfl, rfl, rfl, rfl, aluValue_lshift _ _, rfl, rfl⟩
  | addImmediate a imm | subImmediate a imm =>
    cases (congrArg settle (runRegImm_of_lt _ _ imm (wf_regImm hwf))).symm.trans h
    exact ⟨rfl, rfl, rfl, rfl, rfl, rfl, rfl, rfl, rfl⟩
  | jumpToReg a =>
    cases (exec_jumpToReg_of_lt s (regOk_iff.mp hwf)).symm.trans h
    exact ⟨rfl, rfl, rfl, rfl, rfl, rfl, rfl, rfl, rfl⟩
  | branchIfZero a | branchIfPositive a =>
    obtain ⟨taken, e⟩ | ⟨-, e⟩ := exec_branch_cases (regOk_iff.mp hwf) h (by simp)
    · cases e
      exact ⟨rfl, rfl, rfl, rfl, rfl, rfl, rfl, rfl, rfl⟩
    · cases e
  | load d a =>
    obtain ⟨hd, ha⟩ := wf_twoReg hwf
    obtain ⟨w, hread, e⟩ | ⟨-, e⟩ := exec_load_cases s hd ha
    · cases e.symm.trans h
      exact ⟨rfl, rfl, rfl, rfl, rfl, rfl, rfl, State.wordAt_of_memRead hread, rfl⟩
    · cases e.symm.trans h
  | store a b =>
    obtain ⟨ha, hb⟩ := wf_twoReg hwf
    obtain ⟨m, -, e⟩ | ⟨-, e⟩ := exec_store_cases s ha hb
    · cases e.symm.trans h
      exact ⟨rfl, rfl, rfl, rfl, rfl, rfl, rfl, rfl, rfl⟩
    · cases e.symm.trans h

/-- An instruction's meaning is a settled computation. -/
theorem exec_eq_settle (i : Instr) (s : State) : ∃ r, exec i s = settle r := by
  cases i with
  | nop | displayFlush | halt => exact ⟨.ok _, rfl⟩
  | _ => exact ⟨_, rfl⟩

/-- Settles O34: the forms that always complete, the branches by the flag latch, and the two accesses by the address. -/
theorem instructionsFaultOnlyAsTabulated : Obligations.InstructionsFaultOnlyAsTabulated := by
  intro s i hwf
  refine ⟨fun f h => ?fault, fun q => ?refused⟩
  case refused =>
    obtain ⟨r, hr⟩ := exec_eq_settle i s
    exact hr ▸ settle_ne_refused r q
  case fault =>
    cases i with
    | nop | displayFlush | halt => cases h
    | add d a b | sub d a b | nand d a b | lshift d a b =>
      obtain ⟨hd, ha, hb⟩ := wf_threeReg hwf
      cases (congrArg settle (runThreeReg_of_lt _ _ hd ha hb)).symm.trans h
    | addImmediate a imm | subImmediate a imm =>
      cases (congrArg settle (runRegImm_of_lt _ _ imm (wf_regImm hwf))).symm.trans h
    | jumpToReg a => cases (exec_jumpToReg_of_lt s (regOk_iff.mp hwf)).symm.trans h
    | branchIfZero a | branchIfPositive a =>
      obtain ⟨taken, e⟩ | ⟨hvalid, e⟩ := exec_branch_cases (regOk_iff.mp hwf) h (by simp)
      · cases e
      · cases e
        exact .inl ⟨hvalid, rfl, a, by simp⟩
    | load d a =>
      obtain ⟨hd, ha⟩ := wf_twoReg hwf
      obtain ⟨w, -, e⟩ | ⟨hillegal, e⟩ := exec_load_cases s hd ha
      · cases e.symm.trans h
      · cases e.symm.trans h
        exact .inr ⟨a, hillegal, rfl, .inl ⟨d, rfl⟩⟩
    | store a b =>
      obtain ⟨ha, hb⟩ := wf_twoReg hwf
      obtain ⟨m, -, e⟩ | ⟨hillegal, e⟩ := exec_store_cases s ha hb
      · cases e.symm.trans h
      · cases e.symm.trans h
        exact .inr ⟨a, hillegal, rfl, .inr ⟨b, rfl⟩⟩

/-! ## Register numbers no word encodes (log 16) -/

section OutOfRange
variable {o : Opcode} {d a b : Nat}

/-- A dual read one of whose indices is out of range is fatal with one of them. -/
theorem State.readDual_of_ge (h : 32 ≤ a ∨ 32 ≤ b) :
    ∃ r, (r = a ∨ r = b) ∧ 32 ≤ r ∧ s.readDual a b = .error (.regIndex r) := by
  by_cases ha : 32 ≤ a
  · exact ⟨a, .inl rfl, ha, State.readDual_of_ge_left ha⟩
  · have hb : 32 ≤ b := h.resolve_left ha
    exact ⟨b, .inr rfl, hb, State.readDual_of_ge_right (Nat.not_le.mp ha) hb⟩

/-- A 3-register form that names a register out of range is fatal in its Decode with one of them. -/
theorem latchThreeReg_of_ge (h : 32 ≤ d ∨ 32 ≤ a ∨ 32 ≤ b) :
    ∃ r, (r = d ∨ r = a ∨ r = b) ∧ 32 ≤ r ∧ latchThreeReg o d a b s = .error (.regIndex r) := by
  by_cases hread : 32 ≤ a ∨ 32 ≤ b
  · obtain ⟨r, hr, hge, hdual⟩ := State.readDual_of_ge (s := s) hread
    exact ⟨r, .inr hr, hge, by rw [latchThreeReg, hdual]; rfl⟩
  · obtain ⟨ha, hb⟩ := not_or.mp hread
    have hd : 32 ≤ d := h.resolve_right hread
    refine ⟨d, .inl rfl, hd, ?_⟩
    simp [latchThreeReg, State.readDual_of_lt (Nat.not_le.mp ha) (Nat.not_le.mp hb), bind, Except.bind,
      Nat.not_lt.mpr hd]

/-- The forms that read one register are fatal in their Decode if it is out of range. -/
theorem latchRegImm_of_ge (imm : Word) (ha : 32 ≤ a) : latchRegImm o a imm s = .error (.regIndex a) := by
  rw [latchRegImm, State.readDual_of_ge_left ha]
  rfl

theorem latchOneReg_of_ge (ha : 32 ≤ a) : latchOneReg o a s = .error (.regIndex a) := by
  rw [latchOneReg, State.readDual_of_ge_left ha]
  rfl

theorem latchLoad_of_ge (h : 32 ≤ d ∨ 32 ≤ a) :
    ∃ r, (r = d ∨ r = a) ∧ 32 ≤ r ∧ latchLoad o d a s = .error (.regIndex r) := by
  by_cases ha : 32 ≤ a
  · exact ⟨a, .inr rfl, ha, by rw [latchLoad, State.readDual_of_ge_left ha]; rfl⟩
  · have hd : 32 ≤ d := h.resolve_right ha
    refine ⟨d, .inl rfl, hd, ?_⟩
    simp [latchLoad, State.readDual_of_lt (Nat.not_le.mp ha) (show 0 < 32 by decide), bind, Except.bind,
      Nat.not_lt.mpr hd]

theorem latchStore_of_ge (h : 32 ≤ a ∨ 32 ≤ b) :
    ∃ r, (r = a ∨ r = b) ∧ 32 ≤ r ∧ latchStore o a b s = .error (.regIndex r) := by
  obtain ⟨r, hr, hge, hdual⟩ := State.readDual_of_ge (s := s) h
  exact ⟨r, hr, hge, by rw [latchStore, hdual]; rfl⟩

end OutOfRange

/-- An instruction as text that names a register out of range faults in its operand form. -/
theorem exec_of_reg_out_of_range (s : State) (i : Instr) (h : ∃ r ∈ Claims.regsOf i, 31 < r) :
    ∃ r ∈ Claims.regsOf i, 31 < r ∧ exec i s = .fault (.regIndex r) := by
  cases i with
  | nop | displayFlush | halt =>
    obtain ⟨r, hr, -⟩ := h
    cases hr
  | add d a b | sub d a b | nand d a b | lshift d a b =>
    simp only [Claims.regsOf, List.mem_cons, List.not_mem_nil, or_false, exists_eq_or_imp, exists_eq_left] at h
    obtain ⟨r, hr, hge, hlatch⟩ := latchThreeReg_of_ge (s := s) h
    exact ⟨r, by simpa [Claims.regsOf] using hr, hge, congrArg (fun m => settle (m >>= _)) hlatch⟩
  | addImmediate a imm | subImmediate a imm =>
    obtain ⟨r, hr, hge⟩ := h
    cases List.mem_singleton.mp hr
    exact ⟨a, hr, hge, congrArg (fun m => settle (m >>= _)) (latchRegImm_of_ge (BitVec.ofInt 32 imm) hge)⟩
  | jumpToReg a | branchIfZero a | branchIfPositive a =>
    obtain ⟨r, hr, hge⟩ := h
    cases List.mem_singleton.mp hr
    exact ⟨a, hr, hge, congrArg (fun m => settle (m >>= _)) (latchOneReg_of_ge hge)⟩
  | load d a =>
    simp only [Claims.regsOf, List.mem_cons, List.not_mem_nil, or_false, exists_eq_or_imp, exists_eq_left] at h
    obtain ⟨r, hr, hge, hlatch⟩ := latchLoad_of_ge (s := s) h
    exact ⟨r, by simpa [Claims.regsOf] using hr, hge, congrArg (fun m => settle (m >>= _)) hlatch⟩
  | store a b =>
    simp only [Claims.regsOf, List.mem_cons, List.not_mem_nil, or_false, exists_eq_or_imp, exists_eq_left] at h
    obtain ⟨r, hr, hge, hlatch⟩ := latchStore_of_ge (s := s) h
    exact ⟨r, by simpa [Claims.regsOf] using hr, hge, congrArg (fun m => settle (m >>= _)) hlatch⟩

/-- Settles O12: the ports, the operand forms, and the errors a tick can raise. -/
theorem registerIndexAbove31IsFatal : Obligations.RegisterIndexAbove31IsFatal :=
  ⟨fun _ _ _ h => ⟨RegFile.read_of_ge h, RegFile.write_of_ge h⟩, exec_of_reg_out_of_range, fun _ _ hfault =>
    tick_ne_fatal hfault (fun _ => nofun) (fun _ => nofun) nofun fun _ => nofun⟩

end Sys2Proof.Machine


/-! PROOF. One step (40_control_unit.md R116, log 1): what it does about to fetch, that it is its ticks from any stage,
and that faults are precise (60_exceptions.md section 3). Then the invariant, kept by every tick, so by every step. -/

namespace Sys2Proof.Machine

variable {s t : State} {f : Fault} {i : Instr} {w : Word}

/-! ## A step from Fetch -/

/-- About to fetch a word that decodes, a step runs the instruction after the Fetch tick. -/
theorem step_of_decodeWord (hready : s.Ready) (hread : s.memRead s.pc = .ok w) (hword : decodeWord w = some i) :
    step s = exec i (s.afterFetch w) := by
  obtain ⟨hstage, hhalted, hfault⟩ := hready
  simp [step, hfault, hhalted, hstage, fetchStage_of_memRead hstage hread, latchedInstr, hword]

/-- About to fetch a word that does not, it is fatal with the word's opcode. -/
theorem step_of_decodeWord_none (hready : s.Ready) (hread : s.memRead s.pc = .ok w) (hword : decodeWord w = none) :
    step s = .fault (.badOpcode (opcodeField w)) := by
  obtain ⟨hstage, hhalted, hfault⟩ := hready
  simp [step, hfault, hhalted, hstage, fetchStage_of_memRead hstage hread, latchedInstr, hword]

/-- An illegal `pc` is fatal. -/
theorem step_of_not_legal (hready : s.Ready) (hillegal : ¬ s.Legal s.pc) : step s = .fault (.addrRange s.pc) := by
  obtain ⟨hstage, hhalted, hfault⟩ := hready
  simp [step, hfault, hhalted, hstage, fetchStage_of_not_legal hstage hillegal]

/-- Settles O46: a step by what its fetch answers. -/
theorem stepStopsOnABadFetch : Obligations.StepStopsOnABadFetch := by
  refine ⟨fun s f h => by simp [step, h], fun s hready => ⟨step_of_not_legal hready, fun w hread =>
    ⟨fun hmem => step_of_decodeWord_none hready hread (decodeWord_eq_none.mpr hmem), fun hmem => ?runs⟩⟩⟩
  case runs =>
    obtain ⟨i, hword⟩ := Option.ne_none_iff_exists'.mp (mt decodeWord_eq_none.mp hmem)
    exact ⟨i, hword, step_of_decodeWord hready hread hword⟩

/-- Four bytes that decode are a word that does. -/
theorem decodeWord_of_decode {b0 b1 b2 b3 : Byte} (h : decode [b0, b1, b2, b3] = .ok (i, [])) :
    decodeWord (wordOfBytes b0 b1 b2 b3) = some i := by
  cases hword : decodeWord (wordOfBytes b0 b1 b2 b3) with
  | none => simp [decode, hword] at h
  | some j => simpa [decode, hword] using h

/-- Settles O45: the four bytes are the word read, and the word is run. -/
theorem stepRunsTheDecodedInstruction : Obligations.StepRunsTheDecodedInstruction := by
  intro s i b0 b1 b2 b3 hready hlegal h0 h1 h2 h3 hdecode
  have hword : Claims.WordAt s s.pc (wordOfBytes b0 b1 b2 b3) := by
    obtain ⟨e0, e1, e2, e3⟩ := extractLsb'_wordOfBytes b0 b1 b2 b3
    exact ⟨e0.symm ▸ h0, e1.symm ▸ h1, e2.symm ▸ h2, e3.symm ▸ h3⟩
  exact step_of_decodeWord hready (State.memRead_of_wordAt hlegal hword) (decodeWord_of_decode hdecode)

/-- Placing a word at a legal `pc` is the write of the word and a machine about to fetch. -/
theorem State.withFetchWord_of_memWrite {m : State} (h : s.memWrite s.pc w = .ok m) :
    s.withFetchWord 32 w.toNat = { m with cuState := .fetch, halted := false, fault := none } := by
  have hword : BitVec.ofNat 32 (w.toNat % 2 ^ 32) = w := by
    rw [Nat.mod_eq_of_lt w.isLt, BitVec.ofNat_toNat, BitVec.setWidth_eq]
  rw [State.withFetchWord, hword, h]

/-- Settles O47: the memory round trip at `pc`, and the step of the word read back there. -/
theorem withFetchWordRunsTheWord : Obligations.WithFetchWordRunsTheWord := by
  intro s w i hm hlegal hword
  obtain ⟨m, hwrite⟩ := State.exists_memWrite w hlegal
  obtain ⟨hread, hbytes, hother, -, hm'⟩ := memoryRoundTrip s m s.pc w hm hwrite
  rw [State.withFetchWord_of_memWrite hwrite]
  refine ⟨⟨rfl, rfl, rfl⟩, hbytes, hother, step_of_decodeWord ⟨rfl, rfl, rfl⟩ ?reads hword⟩
  case reads =>
    have hpc : m.pc = s.pc := by rw [hm']
    exact (congrArg m.memRead hpc).trans hread

/-! ## The ticks of a step -/

/-- One tick more. -/
theorem tickN_succ (k : Nat) (s : State) : tickN (k + 1) s = (tick (tickN k s)).1 := tickN_add k 1 s

/-- A machine not faulted after some ticks was not before. -/
theorem tickN_fault_of_le {j k : Nat} (hjk : j ≤ k) (h : (tickN k s).fault = none) : (tickN j s).fault = none := by
  cases hfault : (tickN j s).fault with
  | none => rfl
  | some f => rw [tickN_eq_of_fixed (tick_fst_of_faulted hfault) hjk, hfault] at h; cases h

/-- A tick that records a fault leaves the stage. -/
theorem tick_fault_or_same_stage (h : s.fault = none) : (tick s).1.fault = none ∨ (tick s).1.cuState = s.cuState := by
  obtain hsame | ⟨f, hfatal⟩ | hrun := tick_fst_cases s
  · exact .inr (by rw [hsame])
  · exact .inr (by rw [hfatal, State.raiseFatal_cuState])
  · exact .inl ((runStage_fault hrun).trans h)

/-- A run that is at Fetch after `n` ticks and at no earlier one ran freely: a halt or a fault on the way would have
stood still outside Fetch. -/
theorem ticks_run_freely {n : Nat} (hback : (tickN n s).cuState = .fetch)
    (haway : ∀ k, 0 < k → k < n → (tickN k s).cuState ≠ .fetch) (hn : 1 < n) :
    (tickN n s).fault = none ∧ ∀ k, 0 < k → k < n → (tickN k s).halted = false ∧ (tickN k s).fault = none := by
  have hmoves {k : Nat} (hpos : 0 < k) (hlt : k < n) : (tick (tickN k s)).1 ≠ tickN k s := fun hfix =>
    haway k hpos hlt (by rw [← tickN_eq_of_fixed hfix hlt.le, hback])
  have hrunning : ∀ k, 0 < k → k < n → (tickN k s).halted = false ∧ (tickN k s).fault = none := fun k hpos hlt =>
    ⟨Bool.eq_false_of_not_eq_true fun hhalted => hmoves hpos hlt (tick_fst_of_halted hhalted),
      Option.eq_none_iff_forall_ne_some.mpr fun f hf => hmoves hpos hlt (tick_fst_of_faulted hf)⟩
  refine ⟨?_, hrunning⟩
  obtain ⟨m, rfl⟩ := Nat.exists_eq_add_of_lt hn
  have hpos : 0 < 1 + m := by omega
  have hlt : 1 + m < 1 + m + 1 := Nat.lt_succ_self _
  rw [tickN_succ] at hback ⊢
  exact (tick_fault_or_same_stage (hrunning _ hpos hlt).2).resolve_right fun hstage =>
    haway _ hpos hlt (hstage ▸ hback)

/-- A step that completes has fetched an instruction. -/
theorem exists_fetches_of_step (hready : s.Ready) (h : step s = .next t) : ∃ i, s.Fetches i := by
  by_cases hlegal : s.Legal s.pc
  · obtain ⟨w, hread⟩ := State.exists_memRead hlegal
    cases hword : decodeWord w with
    | none => cases (step_of_decodeWord_none hready hread hword).symm.trans h
    | some i => exact ⟨i, by rw [State.Fetches, hread]; exact hword⟩
  · cases (step_of_not_legal hready hlegal).symm.trans h

/-- A rest of an instruction that is fatal is fatal in its Execute: the Write stage of a write-back opcode goes
through. -/
theorem executeOpcode_of_finishExecute_error {o : Opcode} (hop : s.opLatch = o.code)
    (h : finishExecute s = .error f) : executeOpcode o s = .error f := by
  rw [finishExecute_of_code hop] at h
  obtain hexec | ⟨u, hexec, hrest⟩ := error_cases_of_bind_eq_error h
  · exact hexec
  · cases hwb : o.writesBack with
    | false => rw [hwb] at hrest; cases hrest
    | true =>
      rw [hwb] at hrest
      have hlatched : u.opLatch = o.code := (executeOutcome hexec).opLatch.trans hop
      obtain ⟨v, hwrite⟩ := exists_writeStage_of_writesBack (s := u) (by rw [hlatched, Opcode.ofCode_code]; exact hwb)
      cases hwrite.symm.trans hrest

theorem SameArchitecture.halted (h : SameArchitecture s t) : t.halted = s.halted := by
  obtain ⟨-, -, -, -, hhalted, -, -⟩ := h
  exact hhalted

theorem SameArchitecture.trans {u : State} (h : SameArchitecture s t) (h' : SameArchitecture t u) :
    SameArchitecture s u := by
  obtain ⟨hregs, ⟨hzf, hpf, hvalid⟩, hmem, hpc, hhalted, htrace, hsize⟩ := h
  obtain ⟨hregs', ⟨hzf', hpf', hvalid'⟩, hmem', hpc', hhalted', htrace', hsize'⟩ := h'
  exact ⟨fun r hr => (hregs' r hr).trans (hregs r hr), ⟨hzf'.trans hzf, hpf'.trans hpf, hvalid'.trans hvalid⟩,
    fun a => (hmem' a).trans (hmem a), hpc'.trans hpc, hhalted'.trans hhalted, htrace'.trans htrace,
    hsize'.trans hsize⟩

theorem sameArchitecture_raiseFatal (s : State) (f : Fault) : SameArchitecture s (s.raiseFatal f) :=
  sameArchitecture_of_fields rfl rfl rfl rfl rfl rfl rfl rfl rfl rfl

/-- A step that faults does so in its Fetch, Decode or Execute tick, before anything a program sees has changed. -/
theorem exists_fatal_stage_of_step (hready : s.Ready) (h : step s = .fault f) :
    ∃ k, k < 3 ∧ SameArchitecture s (tickN k s) ∧ (tickN k s).fault = none ∧ runStage (tickN k s) = .error f := by
  obtain ⟨hstage, hhalted, hfault⟩ := hready
  by_cases hlegal : s.Legal s.pc
  · obtain ⟨w, hread⟩ := State.exists_memRead hlegal
    have htick1 : tickN 1 s = s.afterFetch w :=
      tickN_one_of_ok hhalted hfault (by rw [runStage, hstage]; exact fetchStage_of_memRead hstage hread)
    cases hword : decodeWord w with
    | none =>
      cases (step_of_decodeWord_none ⟨hstage, hhalted, hfault⟩ hread hword).symm.trans h
      refine ⟨1, by decide, ?_⟩
      rw [htick1]
      exact ⟨sameArchitecture_afterFetch s w, hfault, decodeStage_of_unassigned (Option.map_eq_none_iff.mp hword)⟩
    | some i =>
      obtain ⟨v, -, htick2, hrest⟩ := step_of_fetches (i := i) ⟨hstage, hhalted, hfault⟩
        (by rw [State.Fetches, hread]; exact hword)
      rw [hrest, settle_eq_fault] at h
      refine ⟨2, by decide, ?_⟩
      rw [htick2]
      exact ⟨(sameArchitecture_afterFetch s v).trans (sameArchitecture_afterDecode _ _),
        (State.afterDecode_fault _).trans hfault, by
          rw [runStage, State.afterDecode_cuState]
          exact (executeStage_of_code (State.afterDecode_opLatch _)).trans
            (executeOpcode_of_finishExecute_error (State.afterDecode_opLatch _) h)⟩
  · cases (step_of_not_legal ⟨hstage, hhalted, hfault⟩ hlegal).symm.trans h
    exact ⟨0, by decide, sameArchitecture_of_fields rfl rfl rfl rfl rfl rfl rfl rfl rfl rfl, hfault,
      by rw [tickN, runStage, hstage]; exact fetchStage_of_not_legal hstage hlegal⟩

/-- The fatal tick of a step that faults. -/
theorem exists_fatal_tick_of_step (hready : s.Ready) (h : step s = .fault f) :
    ∃ k, k < 3 ∧ SameArchitecture s (tickN k s) ∧ (tickN k s).fault = none ∧
      tick (tickN k s) = ((tickN k s).raiseFatal f, .fatal f) := by
  obtain ⟨k, hk, hsame, hfault, hrun⟩ := exists_fatal_stage_of_step hready h
  obtain ⟨-, hhalted, -⟩ := hready
  exact ⟨k, hk, hsame, hfault, tick_of_error (hsame.halted.trans hhalted) hfault hrun⟩

/-- A step is never refused: every branch of it is a next state, a fault or an instruction's settled meaning. -/
theorem step_ne_refused (hready : s.Ready) (q : Refusal) : step s ≠ .refused q := by
  by_cases hlegal : s.Legal s.pc
  · obtain ⟨w, hread⟩ := State.exists_memRead hlegal
    cases hword : decodeWord w with
    | none => rw [step_of_decodeWord_none hready hread hword]; exact nofun
    | some i =>
      obtain ⟨r, hr⟩ := exec_eq_settle i (s.afterFetch w)
      rw [step_of_decodeWord hready hread hword, hr]
      exact settle_ne_refused r q
  · rw [step_of_not_legal hready hlegal]
    exact nofun

/-- Settles O48: the ticks of the opcode's row, on which the machine runs freely, and the fatal tick. -/
theorem stepIsItsTicks : Obligations.StepIsItsTicks := by
  refine fun s hready => ⟨fun t hstep => ?completes, fun f hstep => ?faults, step_ne_refused hready⟩
  case completes =>
    obtain ⟨i, hfetches⟩ := exists_fetches_of_step hready hstep
    obtain ⟨rfl, hback, haway⟩ := takesTicks i s t hready hfetches hstep
    have hn : 1 < i.opcode.ticks := by rw [Opcode.ticks]; split <;> decide
    obtain ⟨hfault, hrunning⟩ := ticks_run_freely hback haway hn
    exact ⟨i, hfetches, rfl, hback, hfault, fun k hpos hlt => ⟨haway k hpos hlt, hrunning k hpos hlt⟩⟩
  case faults =>
    obtain ⟨k, hk, -, hfault, htick⟩ := exists_fatal_tick_of_step hready hstep
    exact ⟨k, hk, fun j hjk => tickN_fault_of_le hjk hfault, htick⟩

/-- Settles O50: the fatal tick records the error on a state with the architecture of the first. -/
theorem faultsArePrecise : Obligations.FaultsArePrecise := by
  intro s f hready hstep
  obtain ⟨k, hk, hsame, -, htick⟩ := exists_fatal_tick_of_step hready hstep
  have hlast : tickN (k + 1) s = (tickN k s).raiseFatal f := by rw [tickN_succ, htick]
  refine ⟨k, hk, congrArg State.fault hlast, ?_⟩
  rw [hlast]
  exact hsame.trans (sameArchitecture_raiseFatal _ f)

/-! ## From the middle of an instruction (log 1) -/

/-- The rest of an instruction from Execute is one tick or two. -/
theorem ticks_of_finishExecute (hstage : s.cuState = .execute) (hhalted : s.halted = false) (hfault : s.fault = none)
    (h : finishExecute s = .ok t) : ∃ k, 0 < k ∧ k ≤ 2 ∧ tickN k s = t ∧ t.cuState = .fetch := by
  obtain ⟨u, hexec, -⟩ := exists_of_bind_eq_ok h
  obtain ⟨o, hop, -⟩ := exists_opcode_of_executeStage hexec
  cases hwb : o.writesBack with
  | false => exact ⟨1, by decide, by decide, ticks_of_no_writeBack hstage hop hhalted hfault hwb h⟩
  | true => exact ⟨2, by decide, by decide, (ticks_of_writeBack hstage hop hhalted hfault hwb h).2⟩

/-- The rest of an instruction from Decode is two ticks or three. -/
theorem ticks_of_step_from_decode (hstage : s.cuState = .decode) (hhalted : s.halted = false) (hfault : s.fault = none)
    (h : step s = .next t) : ∃ k, 0 < k ∧ k ≤ 4 ∧ tickN k s = t ∧ t.cuState = .fetch := by
  simp only [step, hfault, hhalted, hstage, latchedInstr, Bool.false_eq_true, if_false] at h
  cases hword : decodeWord s.memOut with
  | none => rw [hword] at h; cases h
  | some i =>
    obtain ⟨o, hcode, rfl⟩ : ∃ o, Opcode.ofCode (opcodeField s.memOut) = some o ∧ o.withFields s.memOut = i :=
      Option.map_eq_some_iff.mp hword
    rw [hword] at h
    have hrest : finishExecute (s.afterDecode o) = .ok t := settle_eq_next.mp ((exec_withFields o s).symm.trans h)
    have htick1 : tickN 1 s = s.afterDecode o :=
      tickN_one_of_ok hhalted hfault (by rw [runStage, hstage]; exact decodeStage_of_assigned hcode)
    obtain ⟨k, -, hk, hticks, hback⟩ := ticks_of_finishExecute (State.afterDecode_cuState o)
      ((State.afterDecode_halted o).trans hhalted) ((State.afterDecode_fault o).trans hfault) hrest
    exact ⟨1 + k, by omega, by omega, by rw [tickN_add, htick1, hticks], hback⟩

/-- A step that completes from any stage of a running machine is one to four ticks and ends at Fetch. -/
theorem ticks_of_step (hhalted : s.halted = false) (hfault : s.fault = none) (h : step s = .next t) :
    ∃ k, 0 < k ∧ k ≤ 4 ∧ tickN k s = t ∧ t.cuState = .fetch := by
  cases hstage : s.cuState with
  | fetch =>
    obtain ⟨i, hfetches⟩ := exists_fetches_of_step ⟨hstage, hhalted, hfault⟩ h
    obtain ⟨hticks, hback, -⟩ := takesTicks i s t ⟨hstage, hhalted, hfault⟩ hfetches h
    have hn : 0 < i.opcode.ticks ∧ i.opcode.ticks ≤ 4 := by rw [Opcode.ticks]; split <;> decide
    exact ⟨i.opcode.ticks, hn.1, hn.2, hticks, hback⟩
  | decode => exact ticks_of_step_from_decode hstage hhalted hfault h
  | execute =>
    have hrest : settle (finishExecute s) = .next t := by simpa [step, hfault, hhalted, hstage] using h
    obtain ⟨k, hpos, hk, hticks, hback⟩ := ticks_of_finishExecute hstage hhalted hfault (settle_eq_next.mp hrest)
    exact ⟨k, hpos, by omega, hticks, hback⟩
  | write =>
    have hrest : settle (writeStage s) = .next t := by simpa [step, hfault, hhalted, hstage] using h
    have hwrite : writeStage s = .ok t := settle_eq_next.mp hrest
    obtain ⟨v, rfl⟩ := exists_put_of_writeStage hwrite
    exact ⟨1, by decide, by decide, tickN_one_of_ok hhalted hfault (by rw [runStage, hstage]; exact hwrite), rfl⟩

/-- Settles O49: a halted machine's step is no tick, a running one's one to four. -/
theorem stepFinishesTheInstructionInFlight : Obligations.StepFinishesTheInstructionInFlight := by
  intro s t h
  cases hfault : s.fault with
  | some f => simp [step, hfault] at h
  | none =>
    cases hhalted : s.halted with
    | true =>
      simp only [step, hfault, hhalted, if_true, Host.Outcome.next.injEq] at h
      exact ⟨0, by decide, h, fun hrunning => by cases hrunning⟩
    | false =>
      obtain ⟨k, hpos, hk, hticks, hback⟩ := ticks_of_step hhalted hfault h
      exact ⟨k, hk, hticks, fun _ => ⟨hpos, hback⟩⟩

/-! ## The invariant, conjunct by conjunct -/

/-- A tick keeps both memories canonical and inside their capacities: only `store` writes, and by the memory's own
operation. -/
theorem tick_memoryOk (h : s.MemoryOk) : (tick s).1.MemoryOk := by
  obtain hkept | ⟨-, o, -, hexec⟩ := tick_untouched_or_execute s
  · simpa only [State.MemoryOk, hkept.mainSize, hkept.main, hkept.vid] using h
  · have heffect := executeEffect hexec
    obtain ⟨hmain, hvid⟩ | ⟨-, a, v, m, hwrite, hmain, hvid⟩ := heffect.memory
    · simpa only [State.MemoryOk, heffect.mainSize, hmain, hvid] using h
    · have hm := State.memWrite_memoryOk hwrite h
      simpa only [State.MemoryOk, heffect.mainSize, hmain, hvid, (State.memWrite_frame hwrite).1] using hm

/-- A tick keeps the hardwired register's entry: a commit goes past it. -/
theorem tick_zeroOk (h : s.ZeroOk) : (tick s).1.ZeroOk := by
  by_cases hstage : s.cuState = .write
  · obtain hsame | ⟨f, hfatal⟩ | hrun := tick_fst_cases s
    · rwa [hsame]
    · rwa [hfatal]
    · rw [runStage, hstage] at hrun
      obtain ⟨v, e⟩ := exists_put_of_writeStage hrun
      rw [e]
      exact (RegFile.put_entry_zero s.x _ v).trans h
  · rwa [State.ZeroOk, tick_x_of_ne_write hstage]

/-- A tick keeps the flags consistent: they change together, to those of one result. -/
theorem tick_flagsOk (h : s.FlagsOk) : (tick s).1.FlagsOk := by
  have hsame {t : State} (hflags : SameFlags s t) : t.FlagsOk := by
    obtain ⟨hzf, hpf, hvalid⟩ := hflags
    rwa [State.FlagsOk, hzf, hpf, hvalid]
  obtain hkept | ⟨-, o, -, hexec⟩ := tick_untouched_or_execute s
  · exact hsame hkept.flags
  · obtain hflags | ⟨-, r, hzf, hpf⟩ := (executeEffect hexec).flags
    · exact hsame hflags
    · intro _ hzero
      exact hpf.trans (positiveFlag_of_zeroFlag (hzf ▸ hzero))

/-- A tick arrives at Execute from Decode, with an assigned opcode, and at Write from Execute, with one that writes
back. -/
theorem tick_stageOk (h : s.StageOk) : (tick s).1.StageOk := by
  obtain hsame | ⟨f, hfatal⟩ | hrun := tick_fst_cases s
  · rwa [hsame]
  · rwa [hfatal]
  · obtain ⟨-, w, -, e⟩ | ⟨-, o, -, e⟩ | ⟨-, o, hop, hexec⟩ | ⟨-, hwrite⟩ := runStage_cases hrun
    · simp [e, State.StageOk]
    · simp [e, State.StageOk]
    · have hout := executeOutcome hexec
      rw [State.StageOk, hout.cuState, hout.opLatch, hop, Opcode.ofCode_code]
      cases hwb : o.writesBack <;> simp [hwb]
    · obtain ⟨v, e⟩ := exists_put_of_writeStage hwrite
      simp [e, State.StageOk]

/-- A tick keeps the trace canonical: the one event it can add is the video buffer's contents. -/
theorem tick_traceOk (hmem : s.MemoryOk) (h : s.TraceOk) : (tick s).1.TraceOk := by
  obtain hkept | ⟨-, o, -, hexec⟩ := tick_untouched_or_execute s
  · rwa [State.TraceOk, hkept.trace]
  · obtain htrace | ⟨-, htrace⟩ := (executeEffect hexec).trace
    · rwa [State.TraceOk, htrace]
    · obtain ⟨-, -, hwf, hbelow⟩ := hmem
      simp [State.TraceOk, htrace, h, Event.ok, hwf, hbelow]

/-- Settles O53: each conjunct of the invariant is kept by a tick. -/
theorem tickKeepsTheInvariant : Obligations.TickKeepsTheInvariant := by
  intro s ⟨hcapacity, hmemory, hzero, hflags, hstage, hhalt, htrace⟩
  obtain ⟨-, -, -, -, hsize⟩ := whichTickChangesWhat s
  exact ⟨by rwa [State.capacity, hsize], tick_memoryOk hmemory, tick_zeroOk hzero, tick_flagsOk hflags,
    tick_stageOk hstage, tick_haltOk hhalt, tick_traceOk hmemory htrace⟩

/-- Settles O52: a step is some number of ticks, each of which keeps the invariant. -/
theorem stepKeepsTheInvariant : Obligations.StepKeepsTheInvariant := by
  intro s t hinv hstep
  obtain ⟨k, -, rfl, -⟩ := stepFinishesTheInstructionInFlight s t hstep
  exact tickN_keeps tickKeepsTheInvariant k hinv

end Sys2Proof.Machine


/-! PROOF. Reset, construction and the rendered text (10_state.md section 7, 70_reset_and_hazards.md section 2,
20_memory.md section 9). -/

namespace Sys2Proof.Machine

variable {n m : Nat} {image : List Word} {memInit : Nat → Byte}

/-! ## Reset -/

/-- A memory of zero bytes lists nothing. -/
theorem Memory.ofContents_unlisted (cap : Nat) (f : Nat → Byte) (h : ∀ a, f a = Memory.unlisted) :
    Memory.ofContents cap f = [] := by
  simp [Memory.ofContents, h]

/-- Settles O58: with the empty image over zero bytes both instances list nothing. -/
theorem resetIsAConstruction : Obligations.ResetIsAConstruction := by
  have hzero : ∀ a, initialByte [] (fun _ => 0) a = Memory.unlisted := fun a => by simp [initialByte, Memory.unlisted]
  have hbuilt : State.built 4096 [] (fun _ => 0) = State.reset := by
    rw [State.built_eq, State.built_main, State.built_vid, Memory.ofContents_unlisted _ _ hzero,
      Memory.ofContents_unlisted _ _ fun o => hzero (4096 + o)]
    rfl
  have hcapacity : Config.CapacityOk 8192 := by decide
  rw [Obligations.ResetIsAConstruction, State.construct, if_neg (not_not.mpr hcapacity), if_neg (by decide)]
  exact congrArg Except.ok hbuilt

/-- Settles O56: the fields by evaluation, the bytes region by region. -/
theorem resetState : Obligations.ResetState := by
  refine ⟨fun r => ?register, rfl, ⟨rfl, rfl, rfl⟩, rfl, rfl, rfl, rfl, rfl, rfl, rfl, rfl, rfl, rfl, rfl, rfl,
    fun a ha => ?byte⟩
  case register =>
    by_cases hr : r < 32 <;> simp [State.reg, RegFile.value, State.reset, hr]
  case byte =>
    by_cases hmain : a < 4096
    · exact State.byteAt_main hmain
    · exact State.byteAt_video (Nat.not_lt.mp hmain) ha

/-- Settles O54: the parts of the invariant evaluated on the reset state. -/
theorem resetMeetsTheInvariant : Obligations.ResetMeetsTheInvariant := by
  unfold Obligations.ResetMeetsTheInvariant
  exact ⟨by decide, State.reset_memoryOk, rfl, nofun, ⟨nofun, nofun⟩, nofun, rfl⟩

/-! ## Construction -/

/-- Settles O55: construction answers `State.built` alone, and its two instances are canonical. -/
theorem constructionMeetsTheInvariant : Obligations.ConstructionMeetsTheInvariant := by
  intro n image memInit s h
  obtain ⟨m, rfl, hcapacity, -, rfl⟩ := State.construct_cases h
  obtain ⟨hmainWf, hmainBelow, -⟩ := Memory.ofContents_spec m (initialByte image memInit)
  obtain ⟨hvidWf, hvidBelow, -⟩ := Memory.ofContents_spec Config.videoSize fun o => initialByte image memInit (m + o)
  obtain ⟨-, -, hrest⟩ := resetMeetsTheInvariant
  refine ⟨hcapacity, ?memory, hrest⟩
  case memory =>
    rw [State.MemoryOk, State.built_main, State.built_vid, State.built_mainSize]
    exact ⟨hmainWf, hmainBelow, hvidWf, hvidBelow⟩

/-- The bytes of the image at the address of word `i` are those of the word, most significant first. -/
theorem imageByte_word {i k : Nat} (hi : i < image.length) (hk : k < 4) :
    imageByte image (4 * i + k) = ((wordBytes image[i])[k]?).getD 0 := by
  have hdiv : (4 * i + k) / 4 = i := by omega
  have hmod : (4 * i + k) % 4 = k := by omega
  rw [imageByte, hdiv, hmod, List.getElem?_eq_getElem hi, Option.getD_some]

/-- A constructed machine holds word `i` of the image at `4 * i`. -/
theorem State.wordAt_built {i : Nat} (hfits : 4 * image.length ≤ m) (hsmall : m ≤ 2 ^ 31) (hi : i < image.length) :
    Claims.WordAt (State.built m image memInit) (BitVec.ofNat 32 (4 * i)) image[i] := by
  have haddr : (BitVec.ofNat 32 (4 * i)).toNat = 4 * i := by
    rw [BitVec.toNat_ofNat, Nat.mod_eq_of_lt (by omega)]
  have hbyte {k : Nat} (hk : k < 4) :
      (State.built m image memInit).byteAt (4 * i + k) = some (((wordBytes image[i])[k]?).getD 0) := by
    rw [State.byteAt_built m image memInit (by omega), initialByte, if_pos (by omega), imageByte_word hi hk]
  rw [Claims.WordAt, haddr]
  exact ⟨hbyte (k := 0) (by decide), hbyte (by decide), hbyte (by decide), hbyte (by decide)⟩

/-- A constructed machine fetches word `i` of the image from `4 * i`. -/
theorem State.memRead_built {i : Nat} (hfits : 4 * image.length ≤ m) (hsmall : m ≤ 2 ^ 31) (hi : i < image.length) :
    (State.built m image memInit).memRead (BitVec.ofNat 32 (4 * i)) = .ok image[i] := by
  refine State.memRead_of_wordAt (.inl ?legal) (State.wordAt_built hfits hsmall hi)
  case legal =>
    rw [State.built_vbase, BitVec.toNat_ofNat, Nat.mod_eq_of_lt (by omega)]
    omega

/-- A constructed machine holds the initial contents above the image. -/
theorem State.byteAt_built_above {a : Nat} (himage : 4 * image.length ≤ a) (ha : a < m + 4096) :
    (State.built m image memInit).byteAt a = some (memInit a) := by
  rw [State.byteAt_built m image memInit ha, initialByte, if_neg (by omega)]

/-- Registers of a constructed machine are those of the reset state. -/
theorem State.reg_built (r : Nat) : (State.built m image memInit).reg r = 0 := by
  obtain ⟨hregs, -⟩ := resetState
  rw [State.built_eq]
  exact hregs r

/-- Settles O57: the legal capacities with an image that fits, the others, and the image that does not fit. -/
theorem constructionPlacesTheImage : Obligations.ConstructionPlacesTheImage := by
  refine fun n image memInit =>
    ⟨fun hlow hhigh hmod hfits => ?built, fun hbad => ?capacity, fun hlow hhigh hmod hlong => ?image⟩
  case built =>
    have hcapacity : Config.CapacityOk n := ⟨hlow, hhigh, hmod⟩
    have hconstruct : State.construct n image memInit = .ok (State.built (n - 4096) image memInit) := by
      rw [State.construct, if_neg (not_not.mpr hcapacity), if_neg (Nat.not_lt.mpr hfits)]
    have hsize : n - 4096 + 4096 = n := by omega
    refine ⟨_, hconstruct, hsize, ⟨rfl, rfl, rfl⟩, rfl, rfl, State.reg_built, rfl, rfl, rfl, rfl, rfl, rfl, rfl, rfl,
      rfl, rfl, fun i hi => State.memRead_built hfits (by omega) hi, fun a himage ha => ?_⟩
    exact State.byteAt_built_above himage (by omega)
  case capacity =>
    have hcapacity : ¬ Config.CapacityOk n := hbad
    rw [State.construct, if_pos hcapacity]
  case image =>
    rw [State.construct, if_neg (not_not.mpr ⟨hlow, hhigh, hmod⟩), if_pos hlong]

/-! ## The rendered text (R63) -/

/-- Settles O59: rows and columns are the two ranges the text is made from. -/
theorem renderedTextGeometry : Obligations.RenderedTextGeometry := by
  refine fun snap => ⟨by simp [Event.rows, renderRows], fun row hrow => ?width, fun r c hr hc => ?cell⟩
  case width =>
    obtain ⟨r, -, rfl⟩ := List.mem_map.mp hrow
    simp
  case cell => simp [Event.rows, renderRows, renderCell, hr, hc]

end Sys2Proof.Machine
